-- ==== Sys2Proof/Word.lean ====
section
/-! DEFINITION. The words of the block: the byte, the operation word of the host port, the address widths. -/

namespace Sys2Proof

/-- One byte: a framebuffer or display RAM entry, a control byte, a payload byte (20_memory R64, 30_encoding R96). -/
abbrev Byte := BitVec 8

/-- One host operation word, `op_word[31:0]` (30_encoding R91). -/
abbrev OpWord := BitVec 32

/-- One bus transaction as a pattern: 7-bit address, control byte, payload byte, `address || control || payload`
(30_encoding R96). -/
abbrev TxnWord := BitVec 23

/-- Three bus transactions in a row, the first in the high bits (30_encoding R106, row setCursorXY). -/
abbrev TxnWord3 := BitVec 69

/-- An address of the framebuffer or of the display RAM, 0 to 1023 (20_memory R60). -/
abbrev RamAddr := BitVec 10

end Sys2Proof
end

