-- ==== Sys2Proof/Syntax.lean ====
section
/-! DEFINITION. The syntax: one constructor for each of the 82 rows of spec/opcode_table.json.  The ignored bits of a host
word stay in its constructor, because a fault latches the whole word (10_state R26). -/

namespace Sys2Proof

/-- Everything the block can be told, at any of its ports (30_encoding R90). -/
inductive Instr where
  -- host operation words (30_encoding R92 to R95)
  /-- INIT, `opc = 0x1`: bits 27:16 ignored, signed pin identifiers (R94). -/
  | init (ign : BitVec 12) (sda scl : Byte)
  /-- SET_PIXEL, `opc = 0x2`: bits 27:24 ignored, column, row, colour (R93). -/
  | setPixel (ign : BitVec 4) (x y color : Byte)
  /-- DISPLAY, `opc = 0x3`. -/
  | display (ign : BitVec 28)
  /-- CLEAR_DISPLAY, `opc = 0x4`. -/
  | clearDisplay (ign : BitVec 28)
  /-- SET_PAGE_MODE, `opc = 0x5`. -/
  | setPageMode (ign : BitVec 28)
  /-- SET_HORIZONTAL_MODE, `opc = 0x6`. -/
  | setHorizontalMode (ign : BitVec 28)
  /-- SET_POWER_ON, `opc = 0x7`. -/
  | setPowerOn (ign : BitVec 28)
  /-- SET_POWER_OFF, `opc = 0x8`. -/
  | setPowerOff (ign : BitVec 28)
  -- reserved host opcodes (R95)
  | hostReserved0 (ign : BitVec 28)
  | hostReserved9 (ign : BitVec 28)
  | hostReservedA (ign : BitVec 28)
  | hostReservedB (ign : BitVec 28)
  | hostReservedC (ign : BitVec 28)
  | hostReservedD (ign : BitVec 28)
  | hostReservedE (ign : BitVec 28)
  | hostReservedF (ign : BitVec 28)
  -- the sequencer's primitives (40_bus_primitives R130 to R132)
  /-- sendCommand(value). -/
  | sendCommand (value : Byte)
  /-- sendData(value). -/
  | sendData (value : Byte)
  /-- setCursorXY(column_unit, page). -/
  | setCursorXY (columnUnit page : BitVec 4)
  -- transactions as DRF receives them (45_display_register_fsm R220)
  /-- TXN_COMMAND: to `0x3C`, control byte `0x80` (R223). -/
  | txnCommand (p : Byte)
  /-- TXN_DATA: to `0x3C`, control byte `0x40` (R245). -/
  | txnData (d : Byte)
  /-- TXN_RESERVED_CTRL: to `0x3C`, any other control byte (R222). -/
  | txnReservedCtrl (c p : Byte)
  /-- TXN_OTHER_ADDRESS: to another address (R221). -/
  | txnOtherAddress (a : BitVec 7) (c p : Byte)
  -- command bytes as DRF decodes them (30_encoding R98); a two-byte command carries its parameter byte (R99)
  /-- SET_COL_LOW, `0x00` to `0x0F` (R224). -/
  | setColLow (n : BitVec 4)
  /-- SET_COL_HIGH, `0x10` to `0x17` (R225). -/
  | setColHigh (n : BitVec 3)
  /-- SET_COL_HIGH_OUT_OF_RANGE, `0x18` to `0x1F` (R225). -/
  | setColHighOutOfRange (n : BitVec 3)
  /-- SET_ADDR_MODE, `0x20` then the selector (R227). -/
  | setAddrMode (selector : Byte)
  /-- STOP_SCROLL, `0x2E` (R228). -/
  | stopScroll
  /-- START_LINE, `0x40` (R229). -/
  | startLine
  /-- SET_CONTRAST, `0x81` then the parameter (R230). -/
  | setContrast (param : Byte)
  /-- CHARGE_PUMP, `0x8D` then the parameter (R231). -/
  | chargePump (param : Byte)
  /-- SEG_REMAP, `0xA1` (R232). -/
  | segRemap
  /-- DISPLAY_ALL_ON_RESUME, `0xA4` (R233). -/
  | displayAllOnResume
  /-- NORMAL_DISPLAY, `0xA6` (R234). -/
  | normalDisplay
  /-- SET_MUX_RATIO, `0xA8` then the parameter (R235). -/
  | setMuxRatio (param : Byte)
  /-- DISPLAY_OFF, `0xAE` (R236). -/
  | displayOff
  /-- DISPLAY_ON, `0xAF` (R237). -/
  | displayOn
  /-- SET_PAGE, `0xB0` to `0xBF` (R226). -/
  | setPage (n : BitVec 4)
  /-- COM_SCAN_DIR, `0xC8` (R238). -/
  | comScanDir
  /-- SET_DISPLAY_OFFSET, `0xD3` then the parameter (R239). -/
  | setDisplayOffset (param : Byte)
  /-- SET_CLOCK_DIV, `0xD5` then the parameter (R241). -/
  | setClockDiv (param : Byte)
  /-- SET_PRECHARGE, `0xD9` then the parameter (R242). -/
  | setPrecharge (param : Byte)
  /-- SET_COM_PINS, `0xDA` then the parameter (R243). -/
  | setComPins (param : Byte)
  /-- SET_VCOM_LEVEL, `0xDB` then the parameter (R244). -/
  | setVcomLevel (param : Byte)
  -- reserved command bytes (R248), one constructor per row, the row's free low bits as operand
  | rsvdCmd2121
  | rsvdCmd2223 (n : BitVec 1)
  | rsvdCmd2427 (n : BitVec 2)
  | rsvdCmd282B (n : BitVec 2)
  | rsvdCmd2C2D (n : BitVec 1)
  | rsvdCmd2F2F
  | rsvdCmd303F (n : BitVec 4)
  | rsvdCmd4141
  | rsvdCmd4243 (n : BitVec 1)
  | rsvdCmd4447 (n : BitVec 2)
  | rsvdCmd484F (n : BitVec 3)
  | rsvdCmd505F (n : BitVec 4)
  | rsvdCmd607F (n : BitVec 5)
  | rsvdCmd8080
  | rsvdCmd8283 (n : BitVec 1)
  | rsvdCmd8487 (n : BitVec 2)
  | rsvdCmd888B (n : BitVec 2)
  | rsvdCmd8C8C
  | rsvdCmd8E8F (n : BitVec 1)
  | rsvdCmd909F (n : BitVec 4)
  | rsvdCmdA0A0
  | rsvdCmdA2A3 (n : BitVec 1)
  | rsvdCmdA5A5
  | rsvdCmdA7A7
  | rsvdCmdA9A9
  | rsvdCmdAAAB (n : BitVec 1)
  | rsvdCmdACAD (n : BitVec 1)
  | rsvdCmdC0C7 (n : BitVec 3)
  | rsvdCmdC9C9
  | rsvdCmdCACB (n : BitVec 1)
  | rsvdCmdCCCF (n : BitVec 2)
  | rsvdCmdD0D1 (n : BitVec 1)
  | rsvdCmdD2D2
  | rsvdCmdD4D4
  | rsvdCmdD6D7 (n : BitVec 1)
  | rsvdCmdD8D8
  | rsvdCmdDCDF (n : BitVec 2)
  | rsvdCmdE0FF (n : BitVec 5)
deriving DecidableEq, Repr

end Sys2Proof
end

