-- ==== Sys2Proof/WellFormed.lean ====
section
/-! DEFINITION. Which terms of `Instr` are instructions.  Every operand has exactly its field's width, so only two rows of
the table exclude values of their own fields. -/

namespace Sys2Proof

/-- A term is well formed when its row of the opcode table is the one its bits belong to: a reserved control byte is
neither `0x80` nor `0x40` (45_display_register_fsm R222), another address is not `0x3C` (R221). -/
def WellFormed : Instr → Bool
  | .txnReservedCtrl c _ => c != 0x80#8 && c != 0x40#8
  | .txnOtherAddress a _ _ => a != 0x3C#7
  | _ => true

end Sys2Proof
end

