-- ==== Sys2Proof/Decode.lean ====
section
/-! DEFINITION. The decoders of the four ports, total on any bits, and the encoder.  The host port reads operation words
(30_encoding R92 to R95); DRF's bus port reads transactions (R96, R97, R103); DRF's command decoder reads command bytes
(R98, R99, R102); the sequencer's primitives have the transactions they expand to as their encoding (R106). -/

namespace Sys2Proof

/-- Why bits are no instruction of the port they stand at. -/
inductive DecodeError where
  /-- No byte stands at the command decoder. -/
  | noByte
  /-- The opcode of a two-byte command stands there without its parameter byte (30_encoding R99). -/
  | parameterMissing (opcode : Byte)
  /-- A byte that no row of the command table names; every byte has a row (R98), so nothing raises it. -/
  | noRow (b : Byte)
  /-- More bytes than one command takes. -/
  | trailingBytes
  /-- The bits are not those of a primitive's transactions (R106). -/
  | notAPrimitive
deriving DecidableEq, Repr

/-- What a decoder answers: a result, or the reason why the bits are refused. -/
inductive Decoded (α : Type) where
  | ok (a : α)
  | reject (e : DecodeError)
deriving DecidableEq, Repr

/-- The result, if the bits are not refused. -/
def decodedOption {α : Type} : Decoded α → Option α
  | .ok a => some a
  | .reject _ => none

/-- The bits of one instruction, at the port where they stand (R90). -/
inductive Words where
  /-- An operation word at the host port. -/
  | host (w : OpWord)
  /-- The transaction of a call of sendCommand or sendData. -/
  | send (t : TxnWord)
  /-- The three transactions of a call of setCursorXY. -/
  | cursor (t : TxnWord3)
  /-- A transaction at DRF. -/
  | bus (t : TxnWord)
  /-- The payload bytes of one command at DRF's command decoder. -/
  | command (bytes : List Byte)
deriving DecidableEq, Repr

/-! ## Fixed values of the protocol (00_scope R6) -/

/-- `DEV_ADDR`, the peripheral address of every transaction. -/
def devAddr : BitVec 7 := 0x3C#7

/-- `CTRL_CMD`, the control byte of a command transaction. -/
def ctrlCmd : Byte := 0x80#8

/-- `CTRL_DATA`, the control byte of a data transaction. -/
def ctrlData : Byte := 0x40#8

/-- The pattern of a transaction: address, control byte, payload (R96). -/
def txnBits (a : BitVec 7) (c p : Byte) : TxnWord := a ++ c ++ p

/-! ## The host port (R92 to R95) -/

/-- The word of an operation without operands: opcode, then 28 ignored bits (R95). -/
def hostWord (opc : BitVec 4) (ign : BitVec 28) : OpWord := opc ++ ign

/-- The word of SET_PIXEL (R93). -/
def setPixelWord (ign : BitVec 4) (x y color : Byte) : OpWord := 0x2#4 ++ ign ++ x ++ y ++ color

/-- The word of INIT (R94). -/
def initWord (ign : BitVec 12) (sda scl : Byte) : OpWord := 0x1#4 ++ ign ++ sda ++ scl

/-- An operation word, by its opcode field `op_word[31:28]` (R92); every word is an operation or a reserved one. -/
def decodeHost (w : OpWord) : Instr :=
  let ign := w.extractLsb' 0 28
  match w.extractLsb' 28 4 with
  | 0x1#4 => .init (w.extractLsb' 16 12) (w.extractLsb' 8 8) (w.extractLsb' 0 8)
  | 0x2#4 => .setPixel (w.extractLsb' 24 4) (w.extractLsb' 16 8) (w.extractLsb' 8 8) (w.extractLsb' 0 8)
  | 0x3#4 => .display ign
  | 0x4#4 => .clearDisplay ign
  | 0x5#4 => .setPageMode ign
  | 0x6#4 => .setHorizontalMode ign
  | 0x7#4 => .setPowerOn ign
  | 0x8#4 => .setPowerOff ign
  | 0x0#4 => .hostReserved0 ign
  | 0x9#4 => .hostReserved9 ign
  | 0xA#4 => .hostReservedA ign
  | 0xB#4 => .hostReservedB ign
  | 0xC#4 => .hostReservedC ign
  | 0xD#4 => .hostReservedD ign
  | 0xE#4 => .hostReservedE ign
  | _ => .hostReservedF ign    -- 0xF, the one value left

/-! ## DRF's bus port (R96, R97, R103; 45_display_register_fsm R220 to R222) -/

/-- A transaction as DRF tells it apart: the address first, then the whole control byte. -/
def decodeTxn (t : TxnWord) : Instr :=
  let a := t.extractLsb' 16 7
  let c := t.extractLsb' 8 8
  let p := t.extractLsb' 0 8
  if a ≠ devAddr then .txnOtherAddress a c p
  else if c = ctrlCmd then .txnCommand p
  else if c = ctrlData then .txnData p
  else .txnReservedCtrl c p

/-! ## The sequencer's primitives (R106) -/

/-- The transaction of a call of sendCommand or sendData. -/
def decodeSend (t : TxnWord) : Decoded Instr :=
  if t.extractLsb' 8 15 = devAddr ++ ctrlCmd then .ok (.sendCommand (t.extractLsb' 0 8))
  else if t.extractLsb' 8 15 = devAddr ++ ctrlData then .ok (.sendData (t.extractLsb' 0 8))
  else .reject .notAPrimitive

/-- The payloads of setCursorXY: `0x00 | c[3:0]`, `0x10 | c[6:4]`, `0xB0 | page` with `c = column_unit || 0b000`
(R100). -/
def cursorBytes (columnUnit page : BitVec 4) : Byte × Byte × Byte :=
  let c : BitVec 7 := columnUnit ++ 0b000#3
  (0x0#4 ++ c.extractLsb' 0 4, 0b00010#5 ++ c.extractLsb' 4 3, 0xB#4 ++ page)

/-- The three transactions of setCursorXY, the first in the high bits (R106). -/
def cursorBits (columnUnit page : BitVec 4) : TxnWord3 :=
  let b := cursorBytes columnUnit page
  txnBits devAddr ctrlCmd b.1 ++ txnBits devAddr ctrlCmd b.2.1 ++ txnBits devAddr ctrlCmd b.2.2

/-- The three transactions of a call of setCursorXY: column_unit[0] is bit 3 of the first payload, column_unit[3:1]
are the low bits of the second, the page is the low nibble of the third. -/
def decodeCursor (t : TxnWord3) : Decoded Instr :=
  let cu : BitVec 4 := t.extractLsb' 23 3 ++ t.extractLsb' 49 1
  let pg : BitVec 4 := t.extractLsb' 0 4
  if cursorBits cu pg = t then .ok (.setCursorXY cu pg) else .reject .notAPrimitive

/-! ## DRF's command decoder (R98, R99, R102) -/

/-- One row of the command byte map: `mask` and `pattern` as R98 and opcode_table.json give them, `length` the number
of command transactions, `build` the instruction from the first byte and, for a two-byte command, the parameter. -/
structure CommandRow where
  mask : Byte
  pattern : Byte
  length : Nat
  build : Byte → Byte → Instr

/-- The commands R98 defines, and the refused column nibbles. -/
def definedRows : List CommandRow :=
  [ ⟨0xF0, 0x00, 1, fun b _ => .setColLow (b.extractLsb' 0 4)⟩,
    ⟨0xF8, 0x10, 1, fun b _ => .setColHigh (b.extractLsb' 0 3)⟩,
    ⟨0xF8, 0x18, 1, fun b _ => .setColHighOutOfRange (b.extractLsb' 0 3)⟩,
    ⟨0xFF, 0x20, 2, fun _ v => .setAddrMode v⟩,
    ⟨0xFF, 0x2E, 1, fun _ _ => .stopScroll⟩,
    ⟨0xFF, 0x40, 1, fun _ _ => .startLine⟩,
    ⟨0xFF, 0x81, 2, fun _ v => .setContrast v⟩,
    ⟨0xFF, 0x8D, 2, fun _ v => .chargePump v⟩,
    ⟨0xFF, 0xA1, 1, fun _ _ => .segRemap⟩,
    ⟨0xFF, 0xA4, 1, fun _ _ => .displayAllOnResume⟩,
    ⟨0xFF, 0xA6, 1, fun _ _ => .normalDisplay⟩,
    ⟨0xFF, 0xA8, 2, fun _ v => .setMuxRatio v⟩,
    ⟨0xFF, 0xAE, 1, fun _ _ => .displayOff⟩,
    ⟨0xFF, 0xAF, 1, fun _ _ => .displayOn⟩,
    ⟨0xF0, 0xB0, 1, fun b _ => .setPage (b.extractLsb' 0 4)⟩,
    ⟨0xFF, 0xC8, 1, fun _ _ => .comScanDir⟩,
    ⟨0xFF, 0xD3, 2, fun _ v => .setDisplayOffset v⟩,
    ⟨0xFF, 0xD5, 2, fun _ v => .setClockDiv v⟩,
    ⟨0xFF, 0xD9, 2, fun _ v => .setPrecharge v⟩,
    ⟨0xFF, 0xDA, 2, fun _ v => .setComPins v⟩,
    ⟨0xFF, 0xDB, 2, fun _ v => .setVcomLevel v⟩ ]

/-- The reserved command bytes below `0x80` (R98, R248). -/
def reservedRowsLow : List CommandRow :=
  [ ⟨0xFF, 0x21, 1, fun _ _ => .rsvdCmd2121⟩,
    ⟨0xFE, 0x22, 1, fun b _ => .rsvdCmd2223 (b.extractLsb' 0 1)⟩,
    ⟨0xFC, 0x24, 1, fun b _ => .rsvdCmd2427 (b.extractLsb' 0 2)⟩,
    ⟨0xFC, 0x28, 1, fun b _ => .rsvdCmd282B (b.extractLsb' 0 2)⟩,
    ⟨0xFE, 0x2C, 1, fun b _ => .rsvdCmd2C2D (b.extractLsb' 0 1)⟩,
    ⟨0xFF, 0x2F, 1, fun _ _ => .rsvdCmd2F2F⟩,
    ⟨0xF0, 0x30, 1, fun b _ => .rsvdCmd303F (b.extractLsb' 0 4)⟩,
    ⟨0xFF, 0x41, 1, fun _ _ => .rsvdCmd4141⟩,
    ⟨0xFE, 0x42, 1, fun b _ => .rsvdCmd4243 (b.extractLsb' 0 1)⟩,
    ⟨0xFC, 0x44, 1, fun b _ => .rsvdCmd4447 (b.extractLsb' 0 2)⟩,
    ⟨0xF8, 0x48, 1, fun b _ => .rsvdCmd484F (b.extractLsb' 0 3)⟩,
    ⟨0xF0, 0x50, 1, fun b _ => .rsvdCmd505F (b.extractLsb' 0 4)⟩,
    ⟨0xE0, 0x60, 1, fun b _ => .rsvdCmd607F (b.extractLsb' 0 5)⟩ ]

/-- The reserved command bytes from `0x80` to `0xBF`. -/
def reservedRowsMid : List CommandRow :=
  [ ⟨0xFF, 0x80, 1, fun _ _ => .rsvdCmd8080⟩,
    ⟨0xFE, 0x82, 1, fun b _ => .rsvdCmd8283 (b.extractLsb' 0 1)⟩,
    ⟨0xFC, 0x84, 1, fun b _ => .rsvdCmd8487 (b.extractLsb' 0 2)⟩,
    ⟨0xFC, 0x88, 1, fun b _ => .rsvdCmd888B (b.extractLsb' 0 2)⟩,
    ⟨0xFF, 0x8C, 1, fun _ _ => .rsvdCmd8C8C⟩,
    ⟨0xFE, 0x8E, 1, fun b _ => .rsvdCmd8E8F (b.extractLsb' 0 1)⟩,
    ⟨0xF0, 0x90, 1, fun b _ => .rsvdCmd909F (b.extractLsb' 0 4)⟩,
    ⟨0xFF, 0xA0, 1, fun _ _ => .rsvdCmdA0A0⟩,
    ⟨0xFE, 0xA2, 1, fun b _ => .rsvdCmdA2A3 (b.extractLsb' 0 1)⟩,
    ⟨0xFF, 0xA5, 1, fun _ _ => .rsvdCmdA5A5⟩,
    ⟨0xFF, 0xA7, 1, fun _ _ => .rsvdCmdA7A7⟩,
    ⟨0xFF, 0xA9, 1, fun _ _ => .rsvdCmdA9A9⟩,
    ⟨0xFE, 0xAA, 1, fun b _ => .rsvdCmdAAAB (b.extractLsb' 0 1)⟩,
    ⟨0xFE, 0xAC, 1, fun b _ => .rsvdCmdACAD (b.extractLsb' 0 1)⟩ ]

/-- The reserved command bytes from `0xC0` on. -/
def reservedRowsHigh : List CommandRow :=
  [ ⟨0xF8, 0xC0, 1, fun b _ => .rsvdCmdC0C7 (b.extractLsb' 0 3)⟩,
    ⟨0xFF, 0xC9, 1, fun _ _ => .rsvdCmdC9C9⟩,
    ⟨0xFE, 0xCA, 1, fun b _ => .rsvdCmdCACB (b.extractLsb' 0 1)⟩,
    ⟨0xFC, 0xCC, 1, fun b _ => .rsvdCmdCCCF (b.extractLsb' 0 2)⟩,
    ⟨0xFE, 0xD0, 1, fun b _ => .rsvdCmdD0D1 (b.extractLsb' 0 1)⟩,
    ⟨0xFF, 0xD2, 1, fun _ _ => .rsvdCmdD2D2⟩,
    ⟨0xFF, 0xD4, 1, fun _ _ => .rsvdCmdD4D4⟩,
    ⟨0xFE, 0xD6, 1, fun b _ => .rsvdCmdD6D7 (b.extractLsb' 0 1)⟩,
    ⟨0xFF, 0xD8, 1, fun _ _ => .rsvdCmdD8D8⟩,
    ⟨0xFC, 0xDC, 1, fun b _ => .rsvdCmdDCDF (b.extractLsb' 0 2)⟩,
    ⟨0xE0, 0xE0, 1, fun b _ => .rsvdCmdE0FF (b.extractLsb' 0 5)⟩ ]

/-- The whole command byte map: every byte is in exactly one row (R98). -/
def commandRows : List CommandRow := definedRows ++ reservedRowsLow ++ reservedRowsMid ++ reservedRowsHigh

/-- Does the row's pattern hold for the byte? -/
def CommandRow.covers (r : CommandRow) (b : Byte) : Bool := b &&& r.mask == r.pattern

/-- The row of a first byte. -/
def commandRow (b : Byte) : Option CommandRow := commandRows.find? fun r => r.covers b

/-- One command from a stream of command bytes, as decoded while `pending = NONE`, with the bytes after it.  The length
is known from the first byte alone (R99). -/
def decodeCommand : List Byte → Decoded (Instr × List Byte)
  | [] => .reject .noByte
  | b :: rest =>
    match commandRow b with
    | none => .reject (.noRow b)
    | some r =>
      if r.length = 2 then
        match rest with
        | [] => .reject (.parameterMissing b)
        | v :: rest' => .ok (r.build b v, rest')
      else .ok (r.build b 0, rest)

/-! ## All ports -/

/-- The instruction whose bits these are; a command takes all of its bytes. -/
def decode : Words → Decoded Instr
  | .host w => .ok (decodeHost w)
  | .send t => decodeSend t
  | .cursor t => decodeCursor t
  | .bus t => .ok (decodeTxn t)
  | .command bytes =>
    match decodeCommand bytes with
    | .reject e => .reject e
    | .ok (i, []) => .ok i
    | .ok (_, _ :: _) => .reject .trailingBytes

/-- The bits of an instruction, from the encoding tables (R92 to R106 and opcode_table.json). -/
def encode : Instr → Words
  | .init ign sda scl => .host (initWord ign sda scl)
  | .setPixel ign x y color => .host (setPixelWord ign x y color)
  | .display ign => .host (hostWord 0x3 ign)
  | .clearDisplay ign => .host (hostWord 0x4 ign)
  | .setPageMode ign => .host (hostWord 0x5 ign)
  | .setHorizontalMode ign => .host (hostWord 0x6 ign)
  | .setPowerOn ign => .host (hostWord 0x7 ign)
  | .setPowerOff ign => .host (hostWord 0x8 ign)
  | .hostReserved0 ign => .host (hostWord 0x0 ign)
  | .hostReserved9 ign => .host (hostWord 0x9 ign)
  | .hostReservedA ign => .host (hostWord 0xA ign)
  | .hostReservedB ign => .host (hostWord 0xB ign)
  | .hostReservedC ign => .host (hostWord 0xC ign)
  | .hostReservedD ign => .host (hostWord 0xD ign)
  | .hostReservedE ign => .host (hostWord 0xE ign)
  | .hostReservedF ign => .host (hostWord 0xF ign)
  | .sendCommand v => .send (txnBits devAddr ctrlCmd v)
  | .sendData v => .send (txnBits devAddr ctrlData v)
  | .setCursorXY cu pg => .cursor (cursorBits cu pg)
  | .txnCommand v => .bus (txnBits devAddr ctrlCmd v)
  | .txnData v => .bus (txnBits devAddr ctrlData v)
  | .txnReservedCtrl c v => .bus (txnBits devAddr c v)
  | .txnOtherAddress a c v => .bus (txnBits a c v)
  | .setColLow n => .command [0x0#4 ++ n]
  | .setColHigh n => .command [0b00010#5 ++ n]
  | .setColHighOutOfRange n => .command [0b00011#5 ++ n]
  | .setAddrMode v => .command [0x20, v]
  | .stopScroll => .command [0x2E]
  | .startLine => .command [0x40]
  | .setContrast v => .command [0x81, v]
  | .chargePump v => .command [0x8D, v]
  | .segRemap => .command [0xA1]
  | .displayAllOnResume => .command [0xA4]
  | .normalDisplay => .command [0xA6]
  | .setMuxRatio v => .command [0xA8, v]
  | .displayOff => .command [0xAE]
  | .displayOn => .command [0xAF]
  | .setPage n => .command [0xB#4 ++ n]
  | .comScanDir => .command [0xC8]
  | .setDisplayOffset v => .command [0xD3, v]
  | .setClockDiv v => .command [0xD5, v]
  | .setPrecharge v => .command [0xD9, v]
  | .setComPins v => .command [0xDA, v]
  | .setVcomLevel v => .command [0xDB, v]
  | .rsvdCmd2121 => .command [0x21]
  | .rsvdCmd2223 n => .command [0b0010001#7 ++ n]
  | .rsvdCmd2427 n => .command [0b001001#6 ++ n]
  | .rsvdCmd282B n => .command [0b001010#6 ++ n]
  | .rsvdCmd2C2D n => .command [0b0010110#7 ++ n]
  | .rsvdCmd2F2F => .command [0x2F]
  | .rsvdCmd303F n => .command [0b0011#4 ++ n]
  | .rsvdCmd4141 => .command [0x41]
  | .rsvdCmd4243 n => .command [0b0100001#7 ++ n]
  | .rsvdCmd4447 n => .command [0b010001#6 ++ n]
  | .rsvdCmd484F n => .command [0b01001#5 ++ n]
  | .rsvdCmd505F n => .command [0b0101#4 ++ n]
  | .rsvdCmd607F n => .command [0b011#3 ++ n]
  | .rsvdCmd8080 => .command [0x80]
  | .rsvdCmd8283 n => .command [0b1000001#7 ++ n]
  | .rsvdCmd8487 n => .command [0b100001#6 ++ n]
  | .rsvdCmd888B n => .command [0b100010#6 ++ n]
  | .rsvdCmd8C8C => .command [0x8C]
  | .rsvdCmd8E8F n => .command [0b1000111#7 ++ n]
  | .rsvdCmd909F n => .command [0b1001#4 ++ n]
  | .rsvdCmdA0A0 => .command [0xA0]
  | .rsvdCmdA2A3 n => .command [0b1010001#7 ++ n]
  | .rsvdCmdA5A5 => .command [0xA5]
  | .rsvdCmdA7A7 => .command [0xA7]
  | .rsvdCmdA9A9 => .command [0xA9]
  | .rsvdCmdAAAB n => .command [0b1010101#7 ++ n]
  | .rsvdCmdACAD n => .command [0b1010110#7 ++ n]
  | .rsvdCmdC0C7 n => .command [0b11000#5 ++ n]
  | .rsvdCmdC9C9 => .command [0xC9]
  | .rsvdCmdCACB n => .command [0b1100101#7 ++ n]
  | .rsvdCmdCCCF n => .command [0b110011#6 ++ n]
  | .rsvdCmdD0D1 n => .command [0b1101000#7 ++ n]
  | .rsvdCmdD2D2 => .command [0xD2]
  | .rsvdCmdD4D4 => .command [0xD4]
  | .rsvdCmdD6D7 n => .command [0b1101011#7 ++ n]
  | .rsvdCmdD8D8 => .command [0xD8]
  | .rsvdCmdDCDF n => .command [0b110111#6 ++ n]
  | .rsvdCmdE0FF n => .command [0b111#3 ++ n]

/-! ## The host's reading of a table row -/

/-- The instruction whose first `nbits` bits are `w`, numbered as the opcode table numbers them, every bit above them
zero: 8 bits are a command byte (a two-byte command then has the parameter `0x00`), 16 a two-byte command with its
parameter in bits 15:8, 24 (a 23-bit transaction in whole bytes) a transaction at DRF, 32 an operation word, 72 (69
bits) a call of setCursorXY. -/
def decodeTableWord (nbits w : Nat) : Option Instr :=
  if nbits = 8 then
    (decodedOption (decodeCommand [BitVec.ofNat 8 w, 0])).map (·.1)
  else if nbits = 16 then
    decodedOption (decode (.command [BitVec.ofNat 8 w, BitVec.ofNat 8 (w >>> 8)]))
  else if nbits = 23 || nbits = 24 then
    if w < 2 ^ 23 then some (decodeTxn (BitVec.ofNat 23 w)) else none
  else if nbits = 32 then
    some (decodeHost (BitVec.ofNat 32 w))
  else if nbits = 69 || nbits = 72 then
    if w < 2 ^ 69 then decodedOption (decodeCursor (BitVec.ofNat 69 w)) else none
  else none

end Sys2Proof
end

