-- ==== Sys2Proof/Config.lean ====
section
/-! DEFINITION. What the hardware fixes (00_scope R6), the configuration values it leaves to choose between (R7), and the
free values: constants without a body, of which no proof can learn anything. -/

namespace Sys2Proof

/-- One of the two addressing modes (10_state R22, R34): of FBC's cached flag and of DRF's register. -/
inductive Mode where
  | horizontal
  | page
deriving DecidableEq, Repr

/-- `FLUSH_REPOS_STRIDE`, the two admitted values (43_flush R182, 92_eei_decisions D14). -/
inductive Stride where
  | every128
  | every8
deriving DecidableEq, Repr

namespace Config

/-- `WIDTH` (R6). -/
def width : Nat := 128

/-- `HEIGHT` (R6). -/
def height : Nat := 64

/-- `PAGE_HEIGHT` (R6). -/
def pageHeight : Nat := 8

/-- `PAGES` (R6). -/
def pages : Nat := 8

/-- `FB_SIZE`: bytes of the framebuffer and of the display RAM (R6). -/
def fbSize : Nat := 1024

/-- Free value, the raw bytes behind FB_RESET_PATTERN: the spec gives none of them (92_eei_decisions D16; log 1). -/
opaque fbPatternByte : Nat → Byte

/-- Free value: an index at which FB_RESET_PATTERN is certainly not zero (log 1). -/
opaque fbPatternMark : Fin 1024

/-- Free value: one less than the byte at the marked index, used where the raw byte there is zero (log 1). -/
opaque fbPatternMarkByte : Fin 255

/-- Free value: what the flush counter holds after the n-th time it lost its meaning (10_state R23; log 8). -/
opaque idxOutsideFlush : Nat → RamAddr

/-- `FB_RESET_PATTERN`: 1024 free bytes under the one law "not all zero" (10_state R21, D16).  Every pattern that
meets the law is one of these, and each of these meets it; nothing else is known of it (log 1). -/
def fbResetPattern (a : Nat) : Byte :=
  if a = fbPatternMark.val ∧ fbPatternByte a = 0 then BitVec.ofNat 8 (fbPatternMarkByte.val + 1)
  else fbPatternByte a

end Config
end Sys2Proof
end

