-- ==== Sys2Proof/Machine/Memory.lean ====
section
/-! DEFINITION. The two byte memories (20_memory R60, R64): a list of address and byte in one canonical form, and the
operations that keep it. -/

namespace Sys2Proof.Machine

/-- A byte memory of 1024 locations: address and byte, addresses rising, no entry equal to what an unlisted address
reads as. -/
abbrev Memory := List Host.Cell

/-- What an unlisted address reads as.  DESIGN CHOICE (log 2): FB_RESET_PATTERN is listed at reset, and a display RAM byte
that nothing has written reads as this one (unsafe for the display RAM: the spec gives no value). -/
def Memory.unlisted : Byte := 0x00

/-- `MemRead(a, 1)` (00_scope R11). -/
def Memory.read : Memory → Nat → Byte
  | [], _ => Memory.unlisted
  | (b, v) :: rest, a => if b = a then v else Memory.read rest a

/-- An entry in front of a list, unless it says what an unlisted address says. -/
def Memory.put (a : Nat) (v : Byte) (rest : Memory) : Memory :=
  if v = Memory.unlisted then rest else (a, v) :: rest

/-- `MemWrite(a, 1, v)` (00_scope R11), keeping the canonical form. -/
def Memory.write : Memory → Nat → Byte → Memory
  | [], a, v => Memory.put a v []
  | (b, w) :: rest, a, v =>
    if a < b then Memory.put a v ((b, w) :: rest)
    else if a = b then Memory.put a v rest
    else (b, w) :: Memory.write rest a v

/-- Is every listed address at least `lo` and below 1024, rising, and no listed byte the unlisted one? -/
def Memory.wfFrom (lo : Nat) : Memory → Bool
  | [] => true
  | (a, v) :: rest =>
    decide (lo ≤ a) && decide (a < Config.fbSize) && decide (v ≠ Memory.unlisted) && Memory.wfFrom (a + 1) rest

/-- The canonical form of a memory. -/
def Memory.wf (m : Memory) : Bool := Memory.wfFrom 0 m

/-- The canonical memory with the given contents. -/
def Memory.ofFn (f : Nat → Byte) : Memory :=
  (List.range Config.fbSize).filterMap fun a => if f a = Memory.unlisted then none else some (a, f a)

/-- The canonical memory that holds one byte everywhere. -/
def Memory.fill (v : Byte) : Memory := if v = Memory.unlisted then [] else Memory.ofFn fun _ => v

/-- The canonical memory that reads as a given list of cells does, addresses outside the memory left out. -/
def Memory.canonical : Memory → Memory
  | [] => []
  | (a, v) :: rest =>
    if a < Config.fbSize then Memory.write (Memory.canonical rest) a v else Memory.canonical rest

end Sys2Proof.Machine
end

