-- ==== Sys2Proof/Machine/ResetValues.lean ====
section
/-! DEFINITION. What reset leaves where the spec says "unspecified" (10_state R46): a draw of those values, and the draw
`State.reset` takes. -/

namespace Sys2Proof.Machine

/-- One value for every piece of state that R46 leaves unspecified: "the model takes the value as a free input of the
reset step". -/
structure ResetDraw where
  modeFlag : Mode
  idx : RamAddr
  gddram : Memory
  col : BitVec 7
  page : BitVec 4
  addrMode : Mode
  displayOn : Bool
  clkDiv : Byte
  muxRatio : Byte
  dispOffset : Byte
  chargePump : Byte
  comPins : Byte
  contrast : Byte
  precharge : Byte
  vcomLevel : Byte
  startLineCmd : Byte
  segRemapCmd : Byte
  comScanCmd : Byte
  entireOn : Bool
  inverse : Bool
  scrollActive : Bool
deriving DecidableEq, Repr

/-- The draw of `State.reset`.  DESIGN CHOICE (log 3), unsafe: the spec gives none of these values; zero each. -/
def resetDraw : ResetDraw :=
  { modeFlag := .horizontal, idx := 0, gddram := [], col := 0, page := 0, addrMode := .horizontal, displayOn := false,
    clkDiv := 0, muxRatio := 0, dispOffset := 0, chargePump := 0, comPins := 0, contrast := 0, precharge := 0,
    vcomLevel := 0, startLineCmd := 0, segRemapCmd := 0, comScanCmd := 0, entireOn := false, inverse := false,
    scrollActive := false }

/-- The stride of this hardware (43_flush R182: "takes 128 as the value of this hardware"). -/
def resetStride : Stride := .every128

/-- The framebuffer at reset: the bytes of FB_RESET_PATTERN in the memory's canonical form (10_state R21, R46).
Irreducible, so that no comparison of states unfolds 1024 free bytes. -/
@[irreducible] def resetFramebuffer : Memory := Memory.ofFn Config.fbResetPattern

end Sys2Proof.Machine
end

