-- ==== Sys2Proof/Machine/State.lean ====
section
/-! DEFINITION. The state of the block, its reasons to stop, and reset (10_state R20 to R46). -/

namespace Sys2Proof.Machine

/-- A sticky fault flag with the information word latched at its first raise (60_exceptions R271, R272). -/
structure Sticky (n : Nat) where
  flag : Bool
  info : BitVec n
deriving DecidableEq, Repr

/-- A clear flag, as reset leaves it (10_state R46: "and their info words", 0). -/
def Sticky.clear (n : Nat) : Sticky n := ⟨false, 0⟩

/-- One bus write transaction (00_scope R12). -/
structure Txn where
  addr : BitVec 7
  ctrl : Byte
  payload : Byte
deriving DecidableEq, Repr

/-- One transport event (00_scope R12, 10_state R27). -/
inductive Event where
  | busConfig (sda scl : Byte)
  | busStart
  | txn (t : Txn)
deriving DecidableEq, Repr

/-- The transport's pin binding (10_state R25). -/
inductive Pins where
  | default
  | custom (sda scl : Byte)
deriving DecidableEq, Repr

/-- Which transaction of a flush is next (10_state R24): `CUR_LO`, `CUR_HI`, `CUR_PG`, `DATA`. -/
inductive Phase where
  | curLo
  | curHi
  | curPg
  | data
deriving DecidableEq, Repr

/-- The sequencer position (10_state R24).  The index of `FLUSH(idx, ph)` is the register `Fbc.idx`. -/
inductive Seq where
  | idle
  | initCfg (sda scl : Byte)
  | initStart
  | initSend (k : Nat)
  | flush (ph : Phase)
  | mode (t : Mode) (k : Fin 2)
  | power (b : Bool)
deriving DecidableEq, Repr

/-- The opcode of a two-byte command whose parameter has not arrived (10_state R36): the nine of 30_encoding R99. -/
inductive ParamOp where
  | addrMode
  | contrast
  | chargePump
  | muxRatio
  | dispOffset
  | clkDiv
  | precharge
  | comPins
  | vcomLevel
deriving DecidableEq, Repr

/-- FBC, the framebuffer controller (10_state R21 to R27). -/
structure Fbc where
  /-- R21. -/
  fb : Memory
  /-- R22. -/
  modeFlag : Mode
  /-- R23: `col_cnt` is `idx[6:0]`, `page_cnt` is `idx[9:7]`. -/
  idx : RamAddr
  /-- R24. -/
  seq : Seq
  /-- R25. -/
  busStarted : Bool
  /-- R25. -/
  pins : Pins
  /-- R26, `F_COORD`; info: the operation word. -/
  fCoord : Sticky 32
  /-- R26, `F_BADOP`; info: the operation word. -/
  fBadop : Sticky 32
  /-- R26, `F_BUS_NOT_STARTED`; info: the operation word. -/
  fBusNotStarted : Sticky 32
  /-- R27, ghost: the events emitted since reset, oldest first. -/
  trace : List Event
  /-- Whether the last event of the trace is handed to the transport and not yet complete (R12: the sequencer is held
  "until the transport reports completion"; log 9).  It is the event of the sequencer's position, or in `IDLE` the first
  event of `State.calls`. -/
  inFlight : Bool
deriving DecidableEq, Repr

/-- DRF, the display register FSM (10_state R31 to R39). -/
structure Drf where
  /-- R31. -/
  gddram : Memory
  /-- R32. -/
  col : BitVec 7
  /-- R33. -/
  page : BitVec 4
  /-- R34. -/
  addrMode : Mode
  /-- R35. -/
  displayOn : Bool
  /-- R36; `none` is the spec's own `NONE`. -/
  pending : Option ParamOp
  /-- R37, opcode `0xD5`. -/
  clkDiv : Byte
  /-- R37, opcode `0xA8`. -/
  muxRatio : Byte
  /-- R37, opcode `0xD3`. -/
  dispOffset : Byte
  /-- R37, opcode `0x8D`. -/
  chargePump : Byte
  /-- R37, opcode `0xDA`. -/
  comPins : Byte
  /-- R37, opcode `0x81`. -/
  contrast : Byte
  /-- R37, opcode `0xD9`. -/
  precharge : Byte
  /-- R37, opcode `0xDB`. -/
  vcomLevel : Byte
  /-- R38, command `0x40`. -/
  startLineCmd : Byte
  /-- R38, command `0xA1`. -/
  segRemapCmd : Byte
  /-- R38, command `0xC8`. -/
  comScanCmd : Byte
  /-- R38, cleared by `0xA4`. -/
  entireOn : Bool
  /-- R38, cleared by `0xA6`. -/
  inverse : Bool
  /-- R38, cleared by `0x2E`. -/
  scrollActive : Bool
  /-- R39; info of all six: the transaction (R271). -/
  fRsvdCmd : Sticky 23
  /-- R39. -/
  fRsvdCtrl : Sticky 23
  /-- R39. -/
  fProto : Sticky 23
  /-- R39. -/
  fBadSelector : Sticky 23
  /-- R39. -/
  fColRange : Sticky 23
  /-- R39. -/
  fRamRange : Sticky 23
deriving DecidableEq, Repr

/-- What the world outside the block does next.  The first three are the transport's answer to the event in flight; the
others arrive by themselves (log 5, 6, 7). -/
inductive Input where
  /-- The event is complete; a transaction has reached DRF, once and unchanged (20_memory R73, `bus_ok`). -/
  | done
  /-- The event is complete for FBC; the transaction has not reached DRF and FBC cannot know (R73). -/
  | lost
  /-- The event is not complete; the sequencer stays where it is (R74). -/
  | wait
  /-- Reset with the two ignored straps and the values R46 leaves free (70_reset_and_hazards R300, R302). -/
  | reset (width height : Nat) (draw : ResetDraw)
  /-- A transaction on the bus that FBC did not send (45_display_register_fsm R221). -/
  | txn (t : TxnWord)
  /-- The payload bytes of command transactions to `0x3C` that FBC did not send, at DRF's command decoder. -/
  | command (bytes : List Byte)
  /-- A bench's call of sendCommand or sendData (95_test_vectors L2-3). -/
  | callSend (t : TxnWord)
  /-- A bench's call of setCursorXY (95_test_vectors L2-3). -/
  | callCursor (t : TxnWord3)
deriving DecidableEq, Repr

/-- The whole state: the two halves, the configuration field, and what the world has still to do. -/
structure State where
  /-- The framebuffer controller. -/
  fbc : Fbc
  /-- The display register FSM. -/
  drf : Drf
  /-- `FLUSH_REPOS_STRIDE`, a configuration field: no step writes it (43_flush R182). -/
  stride : Stride
  /-- The operation words the host has still to present, the head on `op_word` with `op_valid = 1` (30_encoding R91). -/
  program : List OpWord
  /-- The events that a bench's calls of primitives have still to complete, oldest first (40_bus_primitives R130 to R132;
  log 13). -/
  calls : List Event
  /-- What the transport answers and what arrives, in order. -/
  inputs : List Input
  /-- The model's own: how many free values have been drawn (log 8). -/
  freeCount : Nat
deriving DecidableEq, Repr

/-- Why the machine stops.  No rule of the spec stops it ("A model must not stop the machine on a fault", 60_exceptions
R275): the nine faults of R271 are flags of the state. -/
inductive Fault where
  /-- Raised by a step whose next input is a bench's call with bits that are no primitive's transactions; safe: the spec
  gives such bits no meaning and FBC has no such port (30_encoding R106; log 6). -/
  | notAPrimitive
deriving DecidableEq, Repr

/-- Why an instruction has no meaning in the model. -/
inductive Refusal where
  /-- Raised by an arm of `exec` for an instruction not modelled yet; safe.  No arm raises it: all 82 are modelled. -/
  | notModelled (mnemonic : String)
deriving DecidableEq, Repr

/-- The state after reset, for a draw of the values R46 leaves unspecified. -/
def State.resetWith (d : ResetDraw) : State :=
  { fbc :=
      { fb := resetFramebuffer, modeFlag := d.modeFlag, idx := d.idx, seq := .idle, busStarted := false,
        pins := .default, fCoord := .clear 32, fBadop := .clear 32, fBusNotStarted := .clear 32, trace := [],
        inFlight := false }
    drf :=
      { gddram := Memory.canonical d.gddram, col := d.col, page := d.page, addrMode := d.addrMode, displayOn := d.displayOn,
        pending := none, clkDiv := d.clkDiv, muxRatio := d.muxRatio, dispOffset := d.dispOffset,
        chargePump := d.chargePump, comPins := d.comPins, contrast := d.contrast, precharge := d.precharge,
        vcomLevel := d.vcomLevel, startLineCmd := d.startLineCmd, segRemapCmd := d.segRemapCmd,
        comScanCmd := d.comScanCmd, entireOn := d.entireOn, inverse := d.inverse, scrollActive := d.scrollActive,
        fRsvdCmd := .clear 23, fRsvdCtrl := .clear 23, fProto := .clear 23, fBadSelector := .clear 23,
        fColRange := .clear 23, fRamRange := .clear 23 }
    stride := resetStride
    program := []
    calls := []
    inputs := []
    freeCount := 0 }

/-- The machine right after reset (10_state R46), the unspecified values as `resetDraw` names them (log 3). -/
def State.reset : State := State.resetWith resetDraw

end Sys2Proof.Machine
end

