-- ==== Sys2Proof/Machine/Operands.lean ====
section
/-! DEFINITION. Operand forms and assemblies: pixel coordinates (30_encoding R101), cursor bytes (R100), transactions (R96),
pin identifiers (R94), the parameter opcodes (R99) and the initialization vector (41_init R151). -/

namespace Sys2Proof.Machine

/-! ## SET_PIXEL (R101, 42_pixel R165, R166) -/

/-- Legal coordinates: `x` 0 to 127 and `y` 0 to 63 (R167). -/
def coordsOk (x y : Byte) : Bool := decide (x.toNat < Config.width) && decide (y.toNat < Config.height)

/-- `index = zext_10(x) + (y div 8) * 128`. -/
def pixelIndex (x y : Byte) : RamAddr := x.setWidth 10 + (y.setWidth 10 >>> 3) * 128

/-- `bit = y mod 8`. -/
def pixelBit (y : Byte) : Nat := y.toNat % Config.pageHeight

/-- `mask = 1 << bit`, 8 bits. -/
def pixelMask (y : Byte) : Byte := 1#8 <<< pixelBit y

/-- The byte after plotting: bit set for a nonzero colour, cleared for colour 0, the other seven kept. -/
def plotByte (old : Byte) (y color : Byte) : Byte :=
  if color ≠ 0 then old ||| pixelMask y else old &&& ~~~ pixelMask y

/-! ## Transactions (R96, 40_bus_primitives R130, R131) -/

/-- The pattern of a transaction, as a fault of DRF latches it (60_exceptions R271). -/
def Txn.bits (t : Txn) : TxnWord := txnBits t.addr t.ctrl t.payload

/-- The command transaction of a byte: what sendCommand emits. -/
def commandTxn (v : Byte) : Txn := ⟨devAddr, ctrlCmd, v⟩

/-- The data transaction of a byte: what sendData emits. -/
def dataTxn (v : Byte) : Txn := ⟨devAddr, ctrlData, v⟩

/-! ## Cursor bytes (R100, 43_flush R184) -/

/-- `0x00 | c[3:0]`. -/
def colLowByte (c : BitVec 7) : Byte := 0x0#4 ++ c.extractLsb' 0 4

/-- `0x10 | c[6:4]`. -/
def colHighByte (c : BitVec 7) : Byte := 0b00010#5 ++ c.extractLsb' 4 3

/-- `0xB0 | page`. -/
def pageByte (p : BitVec 4) : Byte := 0xB#4 ++ p

/-- `c = column_unit || 0b000`, 8 times the column unit. -/
def unitColumn (columnUnit : BitVec 4) : BitVec 7 := columnUnit ++ 0b000#3

/-- `col_cnt = idx mod 128` (10_state R23). -/
def colCnt (idx : RamAddr) : BitVec 7 := idx.extractLsb' 0 7

/-- `page_cnt = idx div 128` (10_state R23), as the 4-bit operand of the set-page command. -/
def pageCnt (idx : RamAddr) : BitVec 4 := (idx.extractLsb' 7 3).setWidth 4

/-- The stride as a number of columns (43_flush R182). -/
def strideColumns : Stride → Nat
  | .every128 => 128
  | .every8 => 8

/-- Is a reposition group due before this index (43_flush R184: `idx mod S = 0`)? -/
def groupDue (st : Stride) (idx : RamAddr) : Bool := idx.toNat % strideColumns st == 0

/-! ## Modes (10_state R22, R34) -/

/-- The mode flag's bit: `MODE_HORIZONTAL = 0`, `MODE_PAGE = 1` (92_eei_decisions D9). -/
def modeBit : Mode → BitVec 1
  | .horizontal => 0
  | .page => 1

/-- The selector byte after `0x20` (30_encoding R98): `0x00` horizontal, `0x02` page. -/
def modeSelector : Mode → Byte
  | .horizontal => 0x00
  | .page => 0x02

/-! ## Pin identifiers (R94, 41_init R152) -/

/-- Both identifiers non-negative as two's-complement bytes. -/
def pinsSupplied (sda scl : Byte) : Bool := decide (0 ≤ sda.toInt) && decide (0 ≤ scl.toInt)

/-! ## Command bytes (R98, R99) -/

/-- The opcode byte of a two-byte command. -/
def paramOpByte : ParamOp → Byte
  | .addrMode => 0x20
  | .contrast => 0x81
  | .chargePump => 0x8D
  | .muxRatio => 0xA8
  | .dispOffset => 0xD3
  | .clkDiv => 0xD5
  | .precharge => 0xD9
  | .comPins => 0xDA
  | .vcomLevel => 0xDB

/-- The two-byte command a byte is the opcode of. -/
def paramOpOf (b : Byte) : Option ParamOp :=
  if b = 0x20#8 then some .addrMode
  else if b = 0x81#8 then some .contrast
  else if b = 0x8D#8 then some .chargePump
  else if b = 0xA8#8 then some .muxRatio
  else if b = 0xD3#8 then some .dispOffset
  else if b = 0xD5#8 then some .clkDiv
  else if b = 0xD9#8 then some .precharge
  else if b = 0xDA#8 then some .comPins
  else if b = 0xDB#8 then some .vcomLevel
  else none

/-! ## The initialization vector (41_init R151) -/

/-- `INIT_VECTOR`, 26 bytes (90_conflicts C1, C2). -/
def initVector : List Byte :=
  [0xAE, 0xD5, 0x80, 0xA8, 0x3F, 0xD3, 0x00, 0x40, 0x8D, 0x14, 0x20, 0x00, 0xA1, 0xC8, 0xDA, 0x12] ++
  [0x81, 0xCF, 0xD9, 0xF1, 0xDB, 0x40, 0xA4, 0xA6, 0x2E, 0xAF]

/-- The element of the vector that is the mode selector, after which INIT writes the mode flag (R153). -/
def initModeElement : Nat := 11

end Sys2Proof.Machine
end

