-- ==== Sys2Proof/Machine/Flags.lean ====
section
/-! DEFINITION. Flags: the status outputs of FBC (10_state R44) and the nine sticky fault flags (60_exceptions R271). -/

namespace Sys2Proof.Machine

/-- `busy = (seq != IDLE)`. -/
def State.busy (s : State) : Bool := decide (s.fbc.seq ≠ .idle)

/-- `op_ready = (seq = IDLE)` (30_encoding R91). -/
def State.opReady (s : State) : Bool := decide (s.fbc.seq = .idle)

/-- The `mode_flag` output, one bit. -/
def State.modeFlagOut (s : State) : BitVec 1 := modeBit s.fbc.modeFlag

/-- The three faults of FBC, codes 1 to 3 (R271). -/
inductive FbcFault where
  | coordRange
  | badOp
  | busNotStarted
deriving DecidableEq, Repr

/-- The six faults of DRF, codes 4 to 9 (R271). -/
inductive DrfFault where
  | rsvdCmd
  | rsvdCtrl
  | proto
  | badSelector
  | colRange
  | ramRange
deriving DecidableEq, Repr

/-- The code of an FBC fault (R271). -/
def fbcFaultCode : FbcFault → Nat
  | .coordRange => 1
  | .badOp => 2
  | .busNotStarted => 3

/-- The code of a DRF fault (R271). -/
def drfFaultCode : DrfFault → Nat
  | .rsvdCmd => 4
  | .rsvdCtrl => 5
  | .proto => 6
  | .badSelector => 7
  | .colRange => 8
  | .ramRange => 9

/-- Raise a sticky flag: the information word is latched if the flag was 0 (R272, R276). -/
def stickyRaise {n : Nat} (f : Sticky n) (info : BitVec n) : Sticky n := if f.flag then f else ⟨true, info⟩

/-- The flag of an FBC fault. -/
def fbcFlag (k : FbcFault) (f : Fbc) : Sticky 32 :=
  match k with
  | .coordRange => f.fCoord
  | .badOp => f.fBadop
  | .busNotStarted => f.fBusNotStarted

/-- The flag of a DRF fault. -/
def drfFlag (k : DrfFault) (d : Drf) : Sticky 23 :=
  match k with
  | .rsvdCmd => d.fRsvdCmd
  | .rsvdCtrl => d.fRsvdCtrl
  | .proto => d.fProto
  | .badSelector => d.fBadSelector
  | .colRange => d.fColRange
  | .ramRange => d.fRamRange

/-- No fault flag of FBC is set. -/
def Fbc.noFault (f : Fbc) : Bool := !f.fCoord.flag && !f.fBadop.flag && !f.fBusNotStarted.flag

/-- No fault flag of DRF is set. -/
def Drf.noFault (d : Drf) : Bool :=
  !d.fRsvdCmd.flag && !d.fRsvdCtrl.flag && !d.fProto.flag && !d.fBadSelector.flag && !d.fColRange.flag &&
    !d.fRamRange.flag

end Sys2Proof.Machine
end

