-- ==== Sys2Proof/Machine/Ops.lean ====
section
/-! DEFINITION. The named operations: raising a fault (the block's only exception, 60_exceptions R272), the framebuffer,
DRF's registers and the reception of a transaction (45_display_register_fsm), the transport, the host port and reset. -/

namespace Sys2Proof.Machine

/-- What a meaning or a step answers. -/
abbrev Result := Host.Outcome State Fault Refusal

/-! ## Raising a fault (60_exceptions R272)

The flag, and the information word if the flag was 0; nothing else.  There is no handler and no return (R276). -/

/-- Raise a fault of FBC, the host word as information. -/
def raiseFbc (k : FbcFault) (w : OpWord) (s : State) : State :=
  match k with
  | .coordRange => { s with fbc := { s.fbc with fCoord := stickyRaise s.fbc.fCoord w } }
  | .badOp => { s with fbc := { s.fbc with fBadop := stickyRaise s.fbc.fBadop w } }
  | .busNotStarted => { s with fbc := { s.fbc with fBusNotStarted := stickyRaise s.fbc.fBusNotStarted w } }

/-- Raise a fault of DRF, the transaction as information. -/
def raiseDrf (k : DrfFault) (t : Txn) (d : Drf) : Drf :=
  match k with
  | .rsvdCmd => { d with fRsvdCmd := stickyRaise d.fRsvdCmd t.bits }
  | .rsvdCtrl => { d with fRsvdCtrl := stickyRaise d.fRsvdCtrl t.bits }
  | .proto => { d with fProto := stickyRaise d.fProto t.bits }
  | .badSelector => { d with fBadSelector := stickyRaise d.fBadSelector t.bits }
  | .colRange => { d with fColRange := stickyRaise d.fColRange t.bits }
  | .ramRange => { d with fRamRange := stickyRaise d.fRamRange t.bits }

/-! ## The framebuffer -/

/-- Plot one pixel of legal coordinates: read the byte, change the bit, write the byte (42_pixel R165). -/
def plotPixel (x y color : Byte) (m : Memory) : Memory :=
  Memory.write m (pixelIndex x y).toNat (plotByte (Memory.read m (pixelIndex x y).toNat) y color)

/-- Write `0x00` to all 1024 bytes (44_mode_power_clear R205). -/
def clearedMemory : Memory := Memory.fill 0x00

/-! ## DRF: registers (45_display_register_fsm R224 to R244) -/

/-- `col[3:0] <- n` (R224). -/
def setColLowOp (n : BitVec 4) (d : Drf) : Drf := { d with col := d.col.extractLsb' 4 3 ++ n }

/-- `col[6:4] <- n` (R225). -/
def setColHighOp (n : BitVec 3) (d : Drf) : Drf := { d with col := n ++ d.col.extractLsb' 0 4 }

/-- `page <- n` (R226). -/
def setPageOp (n : BitVec 4) (d : Drf) : Drf := { d with page := n }

/-- The selector of `0x20`: `0x00`, `0x02`, anything else is refused (R227). -/
def setAddrModeOp (s : Byte) (d : Drf) : Drf :=
  if s = modeSelector .horizontal then { d with addrMode := .horizontal }
  else if s = modeSelector .page then { d with addrMode := .page }
  else raiseDrf .badSelector (commandTxn s) d

/-- The parameter rule of a two-byte command (R227, R230, R231, R235, R239, R241 to R244). -/
def parameterRule (op : ParamOp) (v : Byte) (d : Drf) : Drf :=
  match op with
  | .addrMode => setAddrModeOp v d
  | .contrast => { d with contrast := v }
  | .chargePump => { d with chargePump := v }
  | .muxRatio => { d with muxRatio := v }
  | .dispOffset => { d with dispOffset := v }
  | .clkDiv => { d with clkDiv := v }
  | .precharge => { d with precharge := v }
  | .comPins => { d with comPins := v }
  | .vcomLevel => { d with vcomLevel := v }

/-- A command byte received with `pending = NONE`, decoded by 30_encoding R98. -/
def receiveOpcode (b : Byte) (d : Drf) : Drf :=
  if b &&& 0xF0#8 = 0x00#8 then setColLowOp (b.extractLsb' 0 4) d
  else if b &&& 0xF8#8 = 0x10#8 then setColHighOp (b.extractLsb' 0 3) d
  else if b &&& 0xF8#8 = 0x18#8 then raiseDrf .colRange (commandTxn b) d
  else if b &&& 0xF0#8 = 0xB0#8 then setPageOp (b.extractLsb' 0 4) d
  else if b = 0x2E#8 then { d with scrollActive := false }
  else if b = 0x40#8 then { d with startLineCmd := 0x40 }
  else if b = 0xA1#8 then { d with segRemapCmd := 0xA1 }
  else if b = 0xA4#8 then { d with entireOn := false }
  else if b = 0xA6#8 then { d with inverse := false }
  else if b = 0xAE#8 then { d with displayOn := false }
  else if b = 0xAF#8 then { d with displayOn := true }
  else if b = 0xC8#8 then { d with comScanCmd := 0xC8 }
  else
    match paramOpOf b with
    | some op => { d with pending := some op }
    | none => raiseDrf .rsvdCmd (commandTxn b) d

/-- A command byte: with `pending = NONE` what it does as an opcode, otherwise the parameter of the pending opcode
whatever its value (R223). -/
def commandByte (b : Byte) (asOpcode : Drf → Drf) (d : Drf) : Drf :=
  match d.pending with
  | none => asOpcode d
  | some op => parameterRule op b { d with pending := none }

/-- `receive_command` (R223). -/
def receiveCommand (b : Byte) (d : Drf) : Drf := commandByte b (receiveOpcode b) d

/-- The two command transactions of a two-byte command, one after the other: with `pending = NONE` the opcode waits for
the parameter and the parameter takes effect; otherwise the opcode is swallowed as a parameter and the second byte is
decoded as an opcode (R99, R223, R312). -/
def commandPair (op : ParamOp) (v : Byte) (effect : Drf → Drf) (d : Drf) : Drf :=
  match d.pending with
  | none => effect d
  | some p => receiveOpcode v (parameterRule p (paramOpByte op) { d with pending := none })

/-! ## DRF: data (R245 to R247) -/

/-- The display RAM address under the cursor, `col + page*128`, for `page` 0 to 7. -/
def cursorAddr (d : Drf) : RamAddr := d.col.setWidth 10 + d.page.setWidth 10 * 128

/-- The cursor after a data write (R246 horizontal, R247 page). -/
def advanceCursor (d : Drf) : Drf :=
  if d.col.toNat < 127 then { d with col := d.col + 1 }
  else
    match d.addrMode with
    | .horizontal => { d with col := 0, page := (d.page + 1) % 8 }
    | .page => { d with col := 0 }

/-- `receive_data` (R245, R249). -/
def receiveData (v : Byte) (d : Drf) : Drf :=
  match d.pending with
  | some _ => raiseDrf .proto (dataTxn v) d
  | none =>
    if 7 < d.page.toNat then raiseDrf .ramRange (dataTxn v) d
    else advanceCursor { d with gddram := Memory.write d.gddram (cursorAddr d).toNat v }

/-- Reception of one transaction (R220 to R222). -/
def receive (t : Txn) (d : Drf) : Drf :=
  if t.addr ≠ devAddr then d
  else if t.ctrl = ctrlCmd then receiveCommand t.payload d
  else if t.ctrl = ctrlData then receiveData t.payload d
  else raiseDrf .rsvdCtrl t d

/-- A meaning that acts on DRF alone. -/
def drfNext (f : Drf → Drf) (s : State) : Result := .next { s with drf := f s.drf }

/-! ## The transport (00_scope R12, 20_memory R73, R74) -/

/-- `emit`: the event is appended to the trace and handed to the transport. -/
def launch (e : Event) (s : State) : State :=
  { s with fbc := { s.fbc with trace := s.fbc.trace ++ [e], inFlight := true } }

/-- Delivery of an event to DRF; only a transaction is seen there (R220). -/
def deliver (e : Event) (d : Drf) : Drf :=
  match e with
  | .txn t => receive t d
  | .busConfig _ _ => d
  | .busStart => d

/-- The transport's answer about the event in flight, and whether it is complete. -/
def settle (e : Event) (s : State) : State × Bool :=
  match s.inputs with
  | .done :: rest =>
    ({ s with inputs := rest, drf := deliver e s.drf, fbc := { s.fbc with inFlight := false } }, true)
  | .lost :: rest => ({ s with inputs := rest, fbc := { s.fbc with inFlight := false } }, true)
  | .wait :: rest => ({ s with inputs := rest }, false)
  | _ => (s, false)

/-- `emit e` and hold until it is complete.  An event that is in flight already is not emitted again, only held (log 9):
what is in flight is the event of whoever holds the transport, so that "each emit completes before the next begins"
(R70).  Who holds it when a bench calls a primitive beside the sequencer is the model's choice (DESIGN CHOICE, log 13). -/
def transact (e : Event) (s : State) : State × Bool :=
  if s.fbc.inFlight then settle e s else settle e (launch e s)

/-! ## A bench's calls of primitives (40_bus_primitives R130 to R132)

DESIGN CHOICE (log 13): the spec gives the primitives to the sequencer only and says nothing of a caller beside it.  A call
takes the transport when the sequencer is in `IDLE` and every call before it is complete; until then its events wait in
`State.calls`.  So no call consumes, repeats or drops an event of an operation, nor an operation one of a call. -/

/-- The first event of the calls is emitted or held; when it is complete the caller goes on to the next.  The flag says
whether it is complete. -/
def callStep (s : State) : State × Bool :=
  match s.calls with
  | [] => (s, false)
  | e :: rest =>
    if (transact e s).2 then ({ (transact e s).1 with calls := rest }, true) else ((transact e s).1, false)

/-- At most `n` events of the calls, one after the other for as long as the transport completes them. -/
def callSteps : Nat → State → State
  | 0, s => s
  | n + 1, s => if (callStep s).2 then callSteps n (callStep s).1 else (callStep s).1

/-- A call of a primitive that sends `es`: its events join the calls, which go on at once in `IDLE`; a caller that is held
goes on in later steps. -/
def callPrimitive (es : List Event) (s : State) : Result :=
  let t := { s with calls := s.calls ++ es }
  .next (if s.fbc.seq = .idle then callSteps t.calls.length t else t)

/-! ## The host port (30_encoding R91, 40_bus_primitives R133) -/

/-- Acceptance of an operation: only in `IDLE`; otherwise the word is ignored. -/
def accept (s : State) (t : State) : Result := if s.fbc.seq = .idle then .next t else .next s

/-- Acceptance of an operation that needs the bus: the fault BusNotStarted if the transport has not been started. -/
def acceptBus (w : OpWord) (s : State) (t : State) : Result :=
  accept s (if s.fbc.busStarted then t else raiseFbc .busNotStarted w s)

/-- The sequencer enters a position. -/
def enter (q : Seq) (s : State) : State := { s with fbc := { s.fbc with seq := q } }

/-! ## Reset (70_reset_and_hazards R300) -/

/-- `construct(width, height)`: every piece of state at the value of 10_state R46; the two arguments affect nothing.
What the world has still to do, the configuration field and the count of free values are not the block's; a call in
progress ends (log 12). -/
def construct (_width _height : Nat) (d : ResetDraw) (s : State) : State :=
  { State.resetWith d with stride := s.stride, program := s.program, inputs := s.inputs, freeCount := s.freeCount }

end Sys2Proof.Machine
end

