-- ==== Sys2Proof/Machine/BusOps.lean ====
section
/-! DEFINITION. The meanings of the sequencer's primitives (40_bus_primitives R130 to R132) and of the transactions DRF
receives (45_display_register_fsm R220 to R223, R245). -/

namespace Sys2Proof.Machine

/-- sendCommand(value) (R130): `emit Txn(0x3C, 0x80, value)`. -/
def execSendCommand (value : Byte) (s : State) : Result := callPrimitive [.txn (commandTxn value)] s

/-- sendData(value) (R131): `emit Txn(0x3C, 0x40, value)`. -/
def execSendData (value : Byte) (s : State) : Result := callPrimitive [.txn (dataTxn value)] s

/-- setCursorXY(column_unit, page) (R132): three sendCommand, each emitted when the one before it is complete; a send that
is held holds the two after it, and they follow when the transport completes it. -/
def execSetCursorXY (columnUnit page : BitVec 4) (s : State) : Result :=
  callPrimitive
    [ .txn (commandTxn (colLowByte (unitColumn columnUnit))),
      .txn (commandTxn (colHighByte (unitColumn columnUnit))),
      .txn (commandTxn (pageByte page)) ] s

/-- TXN_COMMAND (R223): `receive_command(p)`. -/
def execTxnCommand (p : Byte) (s : State) : Result := drfNext (receiveCommand p) s

/-- TXN_DATA (R245): `receive_data(d)`. -/
def execTxnData (d : Byte) (s : State) : Result := drfNext (receiveData d) s

/-- TXN_RESERVED_CTRL (R222): RsvdCtrl, `pending` keeps its value. -/
def execTxnReservedCtrl (c p : Byte) (s : State) : Result := drfNext (raiseDrf .rsvdCtrl ⟨devAddr, c, p⟩) s

/-- TXN_OTHER_ADDRESS (R221): ignored. -/
def execTxnOtherAddress (_a : BitVec 7) (_c _p : Byte) (s : State) : Result := drfNext (fun d => d) s

end Sys2Proof.Machine
end

