-- ==== Sys2Proof/Machine/CommandOps.lean ====
section
/-! DEFINITION. The meanings of the defined command bytes (30_encoding R98, 45_display_register_fsm R224 to R244).  Each has
two cases (R223): with `pending = NONE` the command itself, otherwise its bytes are what the pending opcode makes of them. -/

namespace Sys2Proof.Machine

/-- SET_COL_LOW (R224). -/
def execSetColLow (n : BitVec 4) (s : State) : Result := drfNext (commandByte (0x0#4 ++ n) (setColLowOp n)) s

/-- SET_COL_HIGH (R225). -/
def execSetColHigh (n : BitVec 3) (s : State) : Result := drfNext (commandByte (0b00010#5 ++ n) (setColHighOp n)) s

/-- SET_COL_HIGH_OUT_OF_RANGE (R225): ColRange, `col` unchanged. -/
def execSetColHighOutOfRange (n : BitVec 3) (s : State) : Result :=
  drfNext (commandByte (0b00011#5 ++ n) (raiseDrf .colRange (commandTxn (0b00011#5 ++ n)))) s

/-- SET_ADDR_MODE (R227). -/
def execSetAddrMode (selector : Byte) (s : State) : Result :=
  drfNext (commandPair .addrMode selector (setAddrModeOp selector)) s

/-- STOP_SCROLL (R228). -/
def execStopScroll (s : State) : Result := drfNext (commandByte 0x2E fun d => { d with scrollActive := false }) s

/-- START_LINE (R229). -/
def execStartLine (s : State) : Result := drfNext (commandByte 0x40 fun d => { d with startLineCmd := 0x40 }) s

/-- SET_CONTRAST (R230). -/
def execSetContrast (param : Byte) (s : State) : Result :=
  drfNext (commandPair .contrast param fun d => { d with contrast := param }) s

/-- CHARGE_PUMP (R231). -/
def execChargePump (param : Byte) (s : State) : Result :=
  drfNext (commandPair .chargePump param fun d => { d with chargePump := param }) s

/-- SEG_REMAP (R232). -/
def execSegRemap (s : State) : Result := drfNext (commandByte 0xA1 fun d => { d with segRemapCmd := 0xA1 }) s

/-- DISPLAY_ALL_ON_RESUME (R233). -/
def execDisplayAllOnResume (s : State) : Result := drfNext (commandByte 0xA4 fun d => { d with entireOn := false }) s

/-- NORMAL_DISPLAY (R234). -/
def execNormalDisplay (s : State) : Result := drfNext (commandByte 0xA6 fun d => { d with inverse := false }) s

/-- SET_MUX_RATIO (R235). -/
def execSetMuxRatio (param : Byte) (s : State) : Result :=
  drfNext (commandPair .muxRatio param fun d => { d with muxRatio := param }) s

/-- DISPLAY_OFF (R236). -/
def execDisplayOff (s : State) : Result := drfNext (commandByte 0xAE fun d => { d with displayOn := false }) s

/-- DISPLAY_ON (R237). -/
def execDisplayOn (s : State) : Result := drfNext (commandByte 0xAF fun d => { d with displayOn := true }) s

/-- SET_PAGE (R226). -/
def execSetPage (n : BitVec 4) (s : State) : Result := drfNext (commandByte (0xB#4 ++ n) (setPageOp n)) s

/-- COM_SCAN_DIR (R238). -/
def execComScanDir (s : State) : Result := drfNext (commandByte 0xC8 fun d => { d with comScanCmd := 0xC8 }) s

/-- SET_DISPLAY_OFFSET (R239). -/
def execSetDisplayOffset (param : Byte) (s : State) : Result :=
  drfNext (commandPair .dispOffset param fun d => { d with dispOffset := param }) s

/-- SET_CLOCK_DIV (R241). -/
def execSetClockDiv (param : Byte) (s : State) : Result :=
  drfNext (commandPair .clkDiv param fun d => { d with clkDiv := param }) s

/-- SET_PRECHARGE (R242). -/
def execSetPrecharge (param : Byte) (s : State) : Result :=
  drfNext (commandPair .precharge param fun d => { d with precharge := param }) s

/-- SET_COM_PINS (R243). -/
def execSetComPins (param : Byte) (s : State) : Result :=
  drfNext (commandPair .comPins param fun d => { d with comPins := param }) s

/-- SET_VCOM_LEVEL (R244). -/
def execSetVcomLevel (param : Byte) (s : State) : Result :=
  drfNext (commandPair .vcomLevel param fun d => { d with vcomLevel := param }) s

end Sys2Proof.Machine
end

