-- ==== Sys2Proof/Machine/HostOps.lean ====
section
/-! DEFINITION. The meanings of the eight host operations: what the step that accepts the word does (30_encoding R91; the
steps after it are the sequencer's). -/

namespace Sys2Proof.Machine

/-- INIT (41_init R150): `seq <- INIT_CFG(sda, scl)`. -/
def execInit (_ign : BitVec 12) (sda scl : Byte) (s : State) : Result := accept s (enter (.initCfg sda scl) s)

/-- SET_PIXEL (42_pixel R165, R167): one bit of the framebuffer, or CoordRange; complete in the accepting step. -/
def execSetPixel (ign : BitVec 4) (x y color : Byte) (s : State) : Result :=
  accept s
    (if coordsOk x y then { s with fbc := { s.fbc with fb := plotPixel x y color s.fbc.fb } }
     else raiseFbc .coordRange (setPixelWord ign x y color) s)

/-- DISPLAY (43_flush R180, R184): `seq <- FLUSH(0, CUR_LO)`, or BusNotStarted. -/
def execDisplay (ign : BitVec 28) (s : State) : Result :=
  acceptBus (hostWord 0x3 ign) s { s with fbc := { s.fbc with idx := 0, seq := .flush .curLo } }

/-- CLEAR_DISPLAY (44_mode_power_clear R205): the framebuffer all zero, complete in the accepting step. -/
def execClearDisplay (_ign : BitVec 28) (s : State) : Result :=
  accept s { s with fbc := { s.fbc with fb := clearedMemory } }

/-- SET_PAGE_MODE (44_mode_power_clear R200): `seq <- MODE(MODE_PAGE, 0)`, or BusNotStarted. -/
def execSetPageMode (ign : BitVec 28) (s : State) : Result :=
  acceptBus (hostWord 0x5 ign) s (enter (.mode .page 0) s)

/-- SET_HORIZONTAL_MODE (R201): `seq <- MODE(MODE_HORIZONTAL, 0)`, or BusNotStarted. -/
def execSetHorizontalMode (ign : BitVec 28) (s : State) : Result :=
  acceptBus (hostWord 0x6 ign) s (enter (.mode .horizontal 0) s)

/-- SET_POWER_ON (R203): `seq <- POWER(1)`, or BusNotStarted. -/
def execSetPowerOn (ign : BitVec 28) (s : State) : Result :=
  acceptBus (hostWord 0x7 ign) s (enter (.power true) s)

/-- SET_POWER_OFF (R204): `seq <- POWER(0)`, or BusNotStarted. -/
def execSetPowerOff (ign : BitVec 28) (s : State) : Result :=
  acceptBus (hostWord 0x8 ign) s (enter (.power false) s)

end Sys2Proof.Machine
end

