-- ==== Sys2Proof/Machine/ReservedOps.lean ====
section
/-! DEFINITION. The meanings of the reserved encodings: host opcodes `0x0` and `0x9` to `0xF` (30_encoding R95) and the 191
reserved command bytes (45_display_register_fsm R248). -/

namespace Sys2Proof.Machine

/-- A reserved host word: BadOp, nothing else (R95). -/
def reservedHost (opc : BitVec 4) (ign : BitVec 28) (s : State) : Result :=
  accept s (raiseFbc .badOp (hostWord opc ign) s)

/-- A reserved command byte: RsvdCmd with `pending = NONE` (R248), otherwise a parameter like any other byte (R223). -/
def reservedCommand (b : Byte) (s : State) : Result := drfNext (commandByte b (raiseDrf .rsvdCmd (commandTxn b))) s

/-! ## Host opcodes -/

/-- HOST_RESERVED_0 (R95). -/
def execHostReserved0 (ign : BitVec 28) (s : State) : Result := reservedHost 0x0 ign s

/-- HOST_RESERVED_9 (R95). -/
def execHostReserved9 (ign : BitVec 28) (s : State) : Result := reservedHost 0x9 ign s

/-- HOST_RESERVED_A (R95). -/
def execHostReservedA (ign : BitVec 28) (s : State) : Result := reservedHost 0xA ign s

/-- HOST_RESERVED_B (R95). -/
def execHostReservedB (ign : BitVec 28) (s : State) : Result := reservedHost 0xB ign s

/-- HOST_RESERVED_C (R95). -/
def execHostReservedC (ign : BitVec 28) (s : State) : Result := reservedHost 0xC ign s

/-- HOST_RESERVED_D (R95). -/
def execHostReservedD (ign : BitVec 28) (s : State) : Result := reservedHost 0xD ign s

/-- HOST_RESERVED_E (R95). -/
def execHostReservedE (ign : BitVec 28) (s : State) : Result := reservedHost 0xE ign s

/-- HOST_RESERVED_F (R95). -/
def execHostReservedF (ign : BitVec 28) (s : State) : Result := reservedHost 0xF ign s

/-! ## Command bytes -/

/-- RSVD_CMD_21_21 (R248). -/
def execRsvdCmd2121 (s : State) : Result := reservedCommand 0x21 s

/-- RSVD_CMD_22_23 (R248). -/
def execRsvdCmd2223 (n : BitVec 1) (s : State) : Result := reservedCommand (0b0010001#7 ++ n) s

/-- RSVD_CMD_24_27 (R248). -/
def execRsvdCmd2427 (n : BitVec 2) (s : State) : Result := reservedCommand (0b001001#6 ++ n) s

/-- RSVD_CMD_28_2B (R248). -/
def execRsvdCmd282B (n : BitVec 2) (s : State) : Result := reservedCommand (0b001010#6 ++ n) s

/-- RSVD_CMD_2C_2D (R248). -/
def execRsvdCmd2C2D (n : BitVec 1) (s : State) : Result := reservedCommand (0b0010110#7 ++ n) s

/-- RSVD_CMD_2F_2F (R248). -/
def execRsvdCmd2F2F (s : State) : Result := reservedCommand 0x2F s

/-- RSVD_CMD_30_3F (R248). -/
def execRsvdCmd303F (n : BitVec 4) (s : State) : Result := reservedCommand (0b0011#4 ++ n) s

/-- RSVD_CMD_41_41 (R248). -/
def execRsvdCmd4141 (s : State) : Result := reservedCommand 0x41 s

/-- RSVD_CMD_42_43 (R248). -/
def execRsvdCmd4243 (n : BitVec 1) (s : State) : Result := reservedCommand (0b0100001#7 ++ n) s

/-- RSVD_CMD_44_47 (R248). -/
def execRsvdCmd4447 (n : BitVec 2) (s : State) : Result := reservedCommand (0b010001#6 ++ n) s

/-- RSVD_CMD_48_4F (R248). -/
def execRsvdCmd484F (n : BitVec 3) (s : State) : Result := reservedCommand (0b01001#5 ++ n) s

/-- RSVD_CMD_50_5F (R248). -/
def execRsvdCmd505F (n : BitVec 4) (s : State) : Result := reservedCommand (0b0101#4 ++ n) s

/-- RSVD_CMD_60_7F (R248). -/
def execRsvdCmd607F (n : BitVec 5) (s : State) : Result := reservedCommand (0b011#3 ++ n) s

/-- RSVD_CMD_80_80 (R248). -/
def execRsvdCmd8080 (s : State) : Result := reservedCommand 0x80 s

/-- RSVD_CMD_82_83 (R248). -/
def execRsvdCmd8283 (n : BitVec 1) (s : State) : Result := reservedCommand (0b1000001#7 ++ n) s

/-- RSVD_CMD_84_87 (R248). -/
def execRsvdCmd8487 (n : BitVec 2) (s : State) : Result := reservedCommand (0b100001#6 ++ n) s

/-- RSVD_CMD_88_8B (R248). -/
def execRsvdCmd888B (n : BitVec 2) (s : State) : Result := reservedCommand (0b100010#6 ++ n) s

/-- RSVD_CMD_8C_8C (R248). -/
def execRsvdCmd8C8C (s : State) : Result := reservedCommand 0x8C s

/-- RSVD_CMD_8E_8F (R248). -/
def execRsvdCmd8E8F (n : BitVec 1) (s : State) : Result := reservedCommand (0b1000111#7 ++ n) s

/-- RSVD_CMD_90_9F (R248). -/
def execRsvdCmd909F (n : BitVec 4) (s : State) : Result := reservedCommand (0b1001#4 ++ n) s

/-- RSVD_CMD_A0_A0 (R248). -/
def execRsvdCmdA0A0 (s : State) : Result := reservedCommand 0xA0 s

/-- RSVD_CMD_A2_A3 (R248). -/
def execRsvdCmdA2A3 (n : BitVec 1) (s : State) : Result := reservedCommand (0b1010001#7 ++ n) s

/-- RSVD_CMD_A5_A5 (R248). -/
def execRsvdCmdA5A5 (s : State) : Result := reservedCommand 0xA5 s

/-- RSVD_CMD_A7_A7 (R248). -/
def execRsvdCmdA7A7 (s : State) : Result := reservedCommand 0xA7 s

/-- RSVD_CMD_A9_A9 (R248). -/
def execRsvdCmdA9A9 (s : State) : Result := reservedCommand 0xA9 s

/-- RSVD_CMD_AA_AB (R248). -/
def execRsvdCmdAAAB (n : BitVec 1) (s : State) : Result := reservedCommand (0b1010101#7 ++ n) s

/-- RSVD_CMD_AC_AD (R248). -/
def execRsvdCmdACAD (n : BitVec 1) (s : State) : Result := reservedCommand (0b1010110#7 ++ n) s

/-- RSVD_CMD_C0_C7 (R248). -/
def execRsvdCmdC0C7 (n : BitVec 3) (s : State) : Result := reservedCommand (0b11000#5 ++ n) s

/-- RSVD_CMD_C9_C9 (R248). -/
def execRsvdCmdC9C9 (s : State) : Result := reservedCommand 0xC9 s

/-- RSVD_CMD_CA_CB (R248). -/
def execRsvdCmdCACB (n : BitVec 1) (s : State) : Result := reservedCommand (0b1100101#7 ++ n) s

/-- RSVD_CMD_CC_CF (R248). -/
def execRsvdCmdCCCF (n : BitVec 2) (s : State) : Result := reservedCommand (0b110011#6 ++ n) s

/-- RSVD_CMD_D0_D1 (R248). -/
def execRsvdCmdD0D1 (n : BitVec 1) (s : State) : Result := reservedCommand (0b1101000#7 ++ n) s

/-- RSVD_CMD_D2_D2 (R248). -/
def execRsvdCmdD2D2 (s : State) : Result := reservedCommand 0xD2 s

/-- RSVD_CMD_D4_D4 (R248). -/
def execRsvdCmdD4D4 (s : State) : Result := reservedCommand 0xD4 s

/-- RSVD_CMD_D6_D7 (R248). -/
def execRsvdCmdD6D7 (n : BitVec 1) (s : State) : Result := reservedCommand (0b1101011#7 ++ n) s

/-- RSVD_CMD_D8_D8 (R248). -/
def execRsvdCmdD8D8 (s : State) : Result := reservedCommand 0xD8 s

/-- RSVD_CMD_DC_DF (R248). -/
def execRsvdCmdDCDF (n : BitVec 2) (s : State) : Result := reservedCommand (0b110111#6 ++ n) s

/-- RSVD_CMD_E0_FF (R248). -/
def execRsvdCmdE0FF (n : BitVec 5) (s : State) : Result := reservedCommand (0b111#3 ++ n) s

end Sys2Proof.Machine
end

