-- ==== Sys2Proof/Machine/Dispatch.lean ====
section
/-! DEFINITION. One arm per instruction, each a direct call of its meaning. -/

namespace Sys2Proof.Machine

def exec (i : Instr) (s : State) : Host.Outcome State Fault Refusal :=
  match i with
  | .init ign sda scl => Sys2Proof.Machine.execInit ign sda scl s
  | .setPixel ign x y color => Sys2Proof.Machine.execSetPixel ign x y color s
  | .display ign => Sys2Proof.Machine.execDisplay ign s
  | .clearDisplay ign => Sys2Proof.Machine.execClearDisplay ign s
  | .setPageMode ign => Sys2Proof.Machine.execSetPageMode ign s
  | .setHorizontalMode ign => Sys2Proof.Machine.execSetHorizontalMode ign s
  | .setPowerOn ign => Sys2Proof.Machine.execSetPowerOn ign s
  | .setPowerOff ign => Sys2Proof.Machine.execSetPowerOff ign s
  | .hostReserved0 ign => Sys2Proof.Machine.execHostReserved0 ign s
  | .hostReserved9 ign => Sys2Proof.Machine.execHostReserved9 ign s
  | .hostReservedA ign => Sys2Proof.Machine.execHostReservedA ign s
  | .hostReservedB ign => Sys2Proof.Machine.execHostReservedB ign s
  | .hostReservedC ign => Sys2Proof.Machine.execHostReservedC ign s
  | .hostReservedD ign => Sys2Proof.Machine.execHostReservedD ign s
  | .hostReservedE ign => Sys2Proof.Machine.execHostReservedE ign s
  | .hostReservedF ign => Sys2Proof.Machine.execHostReservedF ign s
  | .sendCommand value => Sys2Proof.Machine.execSendCommand value s
  | .sendData value => Sys2Proof.Machine.execSendData value s
  | .setCursorXY columnUnit page => Sys2Proof.Machine.execSetCursorXY columnUnit page s
  | .txnCommand p => Sys2Proof.Machine.execTxnCommand p s
  | .txnData d => Sys2Proof.Machine.execTxnData d s
  | .txnReservedCtrl c p => Sys2Proof.Machine.execTxnReservedCtrl c p s
  | .txnOtherAddress a c p => Sys2Proof.Machine.execTxnOtherAddress a c p s
  | .setColLow n => Sys2Proof.Machine.execSetColLow n s
  | .setColHigh n => Sys2Proof.Machine.execSetColHigh n s
  | .setColHighOutOfRange n => Sys2Proof.Machine.execSetColHighOutOfRange n s
  | .setAddrMode selector => Sys2Proof.Machine.execSetAddrMode selector s
  | .stopScroll => Sys2Proof.Machine.execStopScroll s
  | .startLine => Sys2Proof.Machine.execStartLine s
  | .setContrast param => Sys2Proof.Machine.execSetContrast param s
  | .chargePump param => Sys2Proof.Machine.execChargePump param s
  | .segRemap => Sys2Proof.Machine.execSegRemap s
  | .displayAllOnResume => Sys2Proof.Machine.execDisplayAllOnResume s
  | .normalDisplay => Sys2Proof.Machine.execNormalDisplay s
  | .setMuxRatio param => Sys2Proof.Machine.execSetMuxRatio param s
  | .displayOff => Sys2Proof.Machine.execDisplayOff s
  | .displayOn => Sys2Proof.Machine.execDisplayOn s
  | .setPage n => Sys2Proof.Machine.execSetPage n s
  | .comScanDir => Sys2Proof.Machine.execComScanDir s
  | .setDisplayOffset param => Sys2Proof.Machine.execSetDisplayOffset param s
  | .setClockDiv param => Sys2Proof.Machine.execSetClockDiv param s
  | .setPrecharge param => Sys2Proof.Machine.execSetPrecharge param s
  | .setComPins param => Sys2Proof.Machine.execSetComPins param s
  | .setVcomLevel param => Sys2Proof.Machine.execSetVcomLevel param s
  | .rsvdCmd2121 => Sys2Proof.Machine.execRsvdCmd2121 s
  | .rsvdCmd2223 n => Sys2Proof.Machine.execRsvdCmd2223 n s
  | .rsvdCmd2427 n => Sys2Proof.Machine.execRsvdCmd2427 n s
  | .rsvdCmd282B n => Sys2Proof.Machine.execRsvdCmd282B n s
  | .rsvdCmd2C2D n => Sys2Proof.Machine.execRsvdCmd2C2D n s
  | .rsvdCmd2F2F => Sys2Proof.Machine.execRsvdCmd2F2F s
  | .rsvdCmd303F n => Sys2Proof.Machine.execRsvdCmd303F n s
  | .rsvdCmd4141 => Sys2Proof.Machine.execRsvdCmd4141 s
  | .rsvdCmd4243 n => Sys2Proof.Machine.execRsvdCmd4243 n s
  | .rsvdCmd4447 n => Sys2Proof.Machine.execRsvdCmd4447 n s
  | .rsvdCmd484F n => Sys2Proof.Machine.execRsvdCmd484F n s
  | .rsvdCmd505F n => Sys2Proof.Machine.execRsvdCmd505F n s
  | .rsvdCmd607F n => Sys2Proof.Machine.execRsvdCmd607F n s
  | .rsvdCmd8080 => Sys2Proof.Machine.execRsvdCmd8080 s
  | .rsvdCmd8283 n => Sys2Proof.Machine.execRsvdCmd8283 n s
  | .rsvdCmd8487 n => Sys2Proof.Machine.execRsvdCmd8487 n s
  | .rsvdCmd888B n => Sys2Proof.Machine.execRsvdCmd888B n s
  | .rsvdCmd8C8C => Sys2Proof.Machine.execRsvdCmd8C8C s
  | .rsvdCmd8E8F n => Sys2Proof.Machine.execRsvdCmd8E8F n s
  | .rsvdCmd909F n => Sys2Proof.Machine.execRsvdCmd909F n s
  | .rsvdCmdA0A0 => Sys2Proof.Machine.execRsvdCmdA0A0 s
  | .rsvdCmdA2A3 n => Sys2Proof.Machine.execRsvdCmdA2A3 n s
  | .rsvdCmdA5A5 => Sys2Proof.Machine.execRsvdCmdA5A5 s
  | .rsvdCmdA7A7 => Sys2Proof.Machine.execRsvdCmdA7A7 s
  | .rsvdCmdA9A9 => Sys2Proof.Machine.execRsvdCmdA9A9 s
  | .rsvdCmdAAAB n => Sys2Proof.Machine.execRsvdCmdAAAB n s
  | .rsvdCmdACAD n => Sys2Proof.Machine.execRsvdCmdACAD n s
  | .rsvdCmdC0C7 n => Sys2Proof.Machine.execRsvdCmdC0C7 n s
  | .rsvdCmdC9C9 => Sys2Proof.Machine.execRsvdCmdC9C9 s
  | .rsvdCmdCACB n => Sys2Proof.Machine.execRsvdCmdCACB n s
  | .rsvdCmdCCCF n => Sys2Proof.Machine.execRsvdCmdCCCF n s
  | .rsvdCmdD0D1 n => Sys2Proof.Machine.execRsvdCmdD0D1 n s
  | .rsvdCmdD2D2 => Sys2Proof.Machine.execRsvdCmdD2D2 s
  | .rsvdCmdD4D4 => Sys2Proof.Machine.execRsvdCmdD4D4 s
  | .rsvdCmdD6D7 n => Sys2Proof.Machine.execRsvdCmdD6D7 n s
  | .rsvdCmdD8D8 => Sys2Proof.Machine.execRsvdCmdD8D8 s
  | .rsvdCmdDCDF n => Sys2Proof.Machine.execRsvdCmdDCDF n s
  | .rsvdCmdE0FF n => Sys2Proof.Machine.execRsvdCmdE0FF n s

end Sys2Proof.Machine
end

