-- ==== Sys2Proof/Machine/Sequencer.lean ====
section
/-! DEFINITION. The sequencer of FBC: what event each position emits, and where it goes when the event is complete
(10_state R24, 41_init R150, 43_flush R184, 44_mode_power_clear R200 to R204). -/

namespace Sys2Proof.Machine

/-- The event the sequencer position emits; none in `IDLE`, in `INIT_CFG` without both pins, and past the vector. -/
def seqEvent (f : Fbc) : Option Event :=
  match f.seq with
  | .idle => none
  | .initCfg sda scl => if pinsSupplied sda scl then some (.busConfig sda scl) else none
  | .initStart => some .busStart
  | .initSend k => initVector[k]?.map fun v => .txn (commandTxn v)
  | .flush .curLo => some (.txn (commandTxn (colLowByte (colCnt f.idx))))
  | .flush .curHi => some (.txn (commandTxn (colHighByte (colCnt f.idx))))
  | .flush .curPg => some (.txn (commandTxn (pageByte (pageCnt f.idx))))
  | .flush .data => some (.txn (dataTxn (Memory.read f.fb f.idx.toNat)))
  | .mode t k => some (.txn (commandTxn (if k = 0 then 0x20 else modeSelector t)))
  | .power b => some (.txn (commandTxn (if b then 0xAF else 0xAE)))

/-- What the step writes before it emits: the pins before `BusConfig`, `bus_started` before `BusStart` (R150). -/
def seqPrepare (f : Fbc) : Fbc :=
  match f.seq with
  | .initCfg sda scl => if pinsSupplied sda scl then { f with pins := .custom sda scl } else f
  | .initStart => { f with busStarted := true }
  | _ => f

/-- The mode flag INIT writes when the selector of its vector is complete (41_init R153). -/
def initModeWrite (k : Nat) (m : Mode) : Mode := if k = initModeElement then .horizontal else m

/-- After the data byte at `idx`: the next index, with a reposition group first if one is due; after index 1023 `IDLE`,
and the flush counter holds a free value (R184, R185; 10_state R23; log 8). -/
def flushNext (s : State) : State :=
  if s.fbc.idx = 1023 then
    { s with
      fbc := { s.fbc with seq := .idle, idx := Config.idxOutsideFlush s.freeCount }
      freeCount := s.freeCount + 1 }
  else
    { s with
      fbc :=
        { s.fbc with
          idx := s.fbc.idx + 1
          seq := if groupDue s.stride (s.fbc.idx + 1) then .flush .curLo else .flush .data } }

/-- Where the sequencer goes when the position's event is complete, with the flag writes of that step. -/
def seqAdvance (s : State) : State :=
  match s.fbc.seq with
  | .idle => s
  | .initCfg _ _ => enter .initStart s
  | .initStart => enter (.initSend 0) s
  | .initSend k =>
    { s with
      fbc :=
        { s.fbc with
          modeFlag := initModeWrite k s.fbc.modeFlag
          seq := if k + 1 < initVector.length then .initSend (k + 1) else .idle } }
  | .flush .curLo => enter (.flush .curHi) s
  | .flush .curHi => enter (.flush .curPg) s
  | .flush .curPg => enter (.flush .data) s
  | .flush .data => flushNext s
  | .mode t k =>
    if k = 0 then enter (.mode t 1) s
    else { s with fbc := { s.fbc with modeFlag := t, seq := .idle } }
  | .power _ => enter .idle s

/-- One step of the sequencer: prepare, emit the position's event if it has one, and go on when it is complete.  An event
that is not complete leaves the position as it is (20_memory R74). -/
def sequencerStep (s : State) : State :=
  let t := { s with fbc := seqPrepare s.fbc }
  match seqEvent t.fbc with
  | none => seqAdvance t
  | some e => if (transact e t).2 then seqAdvance (transact e t).1 else (transact e t).1

end Sys2Proof.Machine
end

