-- ==== Sys2Proof/Machine/Fetch.lean ====
section
/-! DEFINITION. What moves next: an arrival from outside, a step of the sequencer, or the host's next operation word
(00_scope R8, 30_encoding R91, 20_memory R70; the order among them is log 7). -/

namespace Sys2Proof.Machine

/-- What the next step is made of. -/
inductive Fetch where
  /-- An instruction, decoded at its port, and the state it runs in. -/
  | run (i : Instr) (s : State)
  /-- A step that decodes nothing: reset, a step of the sequencer, an answer of the transport, nothing to do. -/
  | move (s : State)
  /-- Bits that are no instruction of their port. -/
  | bad (r : Fault)

/-- Command bytes at DRF's decoder: one command runs, the bytes after it stay.  The opcode of a two-byte command without
its parameter is one command transaction (R223). -/
def fetchCommand (bytes : List Byte) (s : State) : Fetch :=
  match decodeCommand bytes with
  | .ok (i, []) => .run i s
  | .ok (i, b :: more) => .run i { s with inputs := .command (b :: more) :: s.inputs }
  | .reject (.parameterMissing b) => .run (.txnCommand b) s
  | .reject _ => .move s

/-- A bench's call of a primitive. -/
def fetchCall (r : Decoded Instr) (s : State) : Fetch :=
  match r with
  | .ok i => .run i s
  | .reject _ => .bad .notAPrimitive

/-- With no arrival: the sequencer if it is busy; else a bench's call in progress, during which no word is accepted
(log 13); else the host's word; else nothing (70_reset_and_hazards R302). -/
def fetchOwn (s : State) : Fetch :=
  if s.fbc.seq = .idle then
    match s.calls with
    | _ :: _ => .move (callStep s).1
    | [] =>
      match s.program with
      | w :: rest => .run (decodeHost w) { s with program := rest }
      | [] => .move s
  else .move (sequencerStep s)

/-- The next step of a state. -/
def fetch (s : State) : Fetch :=
  match s.inputs with
  | .reset width height draw :: rest => .move (construct width height draw { s with inputs := rest })
  | .txn t :: rest => .run (decodeTxn t) { s with inputs := rest }
  | .command bytes :: rest => fetchCommand bytes { s with inputs := rest }
  | .callSend t :: rest => fetchCall (decodeSend t) { s with inputs := rest }
  | .callCursor t :: rest => fetchCall (decodeCursor t) { s with inputs := rest }
  | _ => fetchOwn s

/-- Is the input an answer of the transport, not an arrival? -/
def Input.isAnswer : Input → Bool
  | .done => true
  | .lost => true
  | .wait => true
  | .reset _ _ _ => false
  | .txn _ => false
  | .command _ => false
  | .callSend _ => false
  | .callCursor _ => false

/-- The bytes of one command whose first byte is given, the parameter of a two-byte command zero. -/
def commandBytes (b : Byte) : List Byte := if (paramOpOf b).isSome then [b, 0x00] else [b]

/-- Bits of a table row placed where the next step fetches (the ports of `decodeTableWord`): a command byte or a
transaction arrives at DRF, a call arrives at the bench's input, an operation word is presented to an idle block with no
call in progress.  A width no row has places nothing. -/
def placeWord (s : State) (nbits w : Nat) : State :=
  if nbits = 8 then { s with inputs := .command (commandBytes (BitVec.ofNat 8 w)) :: s.inputs }
  else if nbits = 16 then
    { s with inputs := .command [BitVec.ofNat 8 w, BitVec.ofNat 8 (w >>> 8)] :: s.inputs }
  else if nbits = 23 || nbits = 24 then { s with inputs := .txn (BitVec.ofNat 23 w) :: s.inputs }
  else if nbits = 32 then
    { s with
      program := BitVec.ofNat 32 w :: s.program
      calls := []
      inputs := s.inputs.dropWhile fun x => !x.isAnswer
      fbc := { s.fbc with seq := .idle, inFlight := false } }
  else if nbits = 69 || nbits = 72 then { s with inputs := .callCursor (BitVec.ofNat 69 w) :: s.inputs }
  else s

end Sys2Proof.Machine
end

