-- ==== Sys2Proof/Machine/Observe.lean ====
section
/-! DEFINITION. What can be observed: a pixel of a bitmap (42_pixel R169) and the panel image (10_state R43). -/

namespace Sys2Proof.Machine

/-- `pixel(fb, x, y) = fb[x + (y div 8)*128][y mod 8]`, for `x` 0 to 127 and `y` 0 to 63 (R169). -/
def pixel (m : Memory) (x y : Nat) : Bool :=
  (Memory.read m (x + y / Config.pageHeight * Config.width)).getLsbD (y % Config.pageHeight)

/-- `lit(x, y) = display_on AND (gddram[x + (y div 8)*128][y mod 8] = 1)` (R43). -/
def lit (d : Drf) (x y : Nat) : Bool := d.displayOn && pixel d.gddram x y

/-- The fourteen latches hold the values INIT leaves (41_init R155); only then is `lit` the panel's image (R43). -/
def initLatches (d : Drf) : Bool :=
  d.clkDiv == 0x80 && d.muxRatio == 0x3F && d.dispOffset == 0x00 && d.startLineCmd == 0x40 && d.chargePump == 0x14 &&
    d.segRemapCmd == 0xA1 && d.comScanCmd == 0xC8 && d.comPins == 0x12 && d.contrast == 0xCF && d.precharge == 0xF1 &&
    d.vcomLevel == 0x40 && !d.entireOn && !d.inverse && !d.scrollActive

end Sys2Proof.Machine
end

