-- ==== Sys2Proof/Safety.lean ====
section
/-! DEFINITION. The terms in which claims are made: runs, the premises about the transport (20_memory R73, R74), good ends
(00_scope R9), and the invariants. -/

namespace Sys2Proof.Machine

/-! ## Runs -/

/-- `n` steps, stopping at the first that does not answer a next state. -/
def steps : Nat → State → Result
  | 0, s => .next s
  | n + 1, s =>
    match step s with
    | .next t => steps n t
    | .fault r => .fault r
    | .refused r => .refused r

/-- A block at rest: the sequencer in `IDLE`, no call of a bench in progress, the transport free. -/
def atRest (s : State) : Bool := decide (s.fbc.seq = .idle) && s.calls.isEmpty && !s.fbc.inFlight

/-- A good end of a run: nothing left to present, nothing going on, no fault flag set (R9). -/
def goodEnd (s : State) : Bool := s.program.isEmpty && atRest s && s.fbc.noFault && s.drf.noFault

/-! ## Premises about what the world does -/

/-- A block at rest, the host presenting a word, and `rest` to come after it (30_encoding R91). -/
def presents (s : State) (w : OpWord) (rest : List OpWord) : Prop := atRest s = true ∧ s.program = w :: rest

/-- `bus_ok` (20_memory R73): every emitted transaction is delivered to DRF once, unchanged, in order; none is lost. -/
def busOk (s : State) : Bool := s.inputs.all fun x => decide (x ≠ .lost)

/-- The transport's answer "complete", delivered or not. -/
def Input.completes (x : Input) : Bool := decide (x = .done) || decide (x = .lost)

/-- `bus_progress` (20_memory R74, "every started transaction completes"), for the next `n` transactions: the transport
answers, and completes so many before anything arrives.  Named premise of every claim that an operation ends. -/
def busProgress (n : Nat) (s : State) : Bool :=
  decide (n ≤ (s.inputs.takeWhile Input.isAnswer).countP Input.completes)

/-- DRF receives nothing but what FBC emits (00_scope R8: no second master). -/
def noTraffic (s : State) : Bool :=
  s.inputs.all fun x =>
    match x with
    | .txn _ => false
    | .command _ => false
    | _ => true

/-- No bench calls a primitive from here on. -/
def noNewCalls (s : State) : Bool :=
  s.inputs.all fun x =>
    match x with
    | .callSend _ => false
    | .callCursor _ => false
    | _ => true

/-- No bench calls a primitive, and no call is in progress. -/
def noCalls (s : State) : Bool := s.calls.isEmpty && noNewCalls s

/-- The next input is no arrival: the step is the sequencer's or the host's. -/
def noArrival (s : State) : Bool :=
  match s.inputs with
  | [] => true
  | x :: _ => x.isAnswer

/-- The next input is not a reset. -/
def noReset (s : State) : Bool :=
  match s.inputs with
  | .reset _ _ _ :: _ => false
  | _ => true

/-- An input with the difference between a delivered and a lost transaction taken away. -/
def forgetDelivery : Input → Input
  | .lost => .done
  | x => x

/-! ## Invariants -/

/-- Both memories are canonical. -/
def memoryOk (s : State) : Bool := Memory.wf s.fbc.fb && Memory.wf s.drf.gddram

/-- Pins in use are non-negative (10_state R25); the sequencer position is one of R24's, a reposition group stands only
where one is due (43_flush R184), and a position that sends has the transport started (40_bus_primitives R133). -/
def sequencerOk (s : State) : Bool :=
  (match s.fbc.pins with
    | .default => true
    | .custom sda scl => pinsSupplied sda scl) &&
  (match s.fbc.seq with
    | .idle => true
    | .initCfg _ _ => true
    | .initStart => true
    | .initSend k => decide (k < initVector.length) && s.fbc.busStarted
    | .flush ph => (decide (ph = .data) || groupDue s.stride s.fbc.idx) && s.fbc.busStarted
    | .mode _ _ => s.fbc.busStarted
    | .power _ => s.fbc.busStarted)

/-- The event whose turn it is: that of the sequencer position (10_state R24), in `IDLE` the first of a bench's calls. -/
def currentEvent (s : State) : Option Event := if s.fbc.seq = .idle then s.calls.head? else seqEvent s.fbc

/-- An event in flight is the last of the trace and the one whose turn it is (20_memory R70). -/
def inFlightOk (s : State) : Bool :=
  !s.fbc.inFlight || ((currentEvent s).isSome && decide (s.fbc.trace.getLast? = currentEvent s))

/-- The events of a bench's calls that are not emitted yet. -/
def unsentCalls (s : State) : List Event :=
  if s.fbc.seq = .idle ∧ s.fbc.inFlight = true then s.calls.tail else s.calls

/-- The events that are complete: the trace without the event in flight. -/
def settledTrace (f : Fbc) : List Event := if f.inFlight then f.trace.dropLast else f.trace

/-- The addressing mode a selector byte names. -/
def selectorMode (p : Byte) : Option Mode :=
  if p = modeSelector .horizontal then some .horizontal
  else if p = modeSelector .page then some .page
  else none

/-- What one event does to "was the last command byte an addressing-mode opcode" and "which mode was sent last". -/
def selectorScanStep : Bool × Option Mode → Event → Bool × Option Mode
  | (awaiting, last), .txn t =>
    if t.addr = devAddr ∧ t.ctrl = ctrlCmd then
      if awaiting then (false, selectorMode t.payload) else (t.payload == 0x20, last)
    else (awaiting, last)
  | r, .busConfig _ _ => r
  | r, .busStart => r

/-- Whether a list of events ends inside a mode command, and the last mode it sent (10_state R41). -/
def selectorScan (es : List Event) : Bool × Option Mode := es.foldl selectorScanStep (false, none)

/-- The positions between the two transactions of a mode command (41_init R151 elements 10 and 11, R200, R201). -/
def awaitsSelector : Seq → Bool
  | .mode _ k => decide (k = 1)
  | .initSend k => decide (k = initModeElement)
  | _ => false

/-- The mode invariant (10_state R41): the flag is the last mode sent. -/
def modeOk (s : State) : Bool :=
  inFlightOk s && (selectorScan (settledTrace s.fbc)).1 == awaitsSelector s.fbc.seq &&
    (match (selectorScan (settledTrace s.fbc)).2 with
      | none => true
      | some m => decide (s.fbc.modeFlag = m))

/-- The two-byte command DRF waits for at a sequencer position, if every transaction has reached it (70_reset R317). -/
def seqPending : Seq → Option ParamOp
  | .mode _ k => if k = 1 then some .addrMode else none
  | .initSend k => if k = 0 then none else initVector[k - 1]?.bind paramOpOf
  | _ => none

/-- DRF in step with FBC (70_reset R317, 10_state R41): no fault of DRF, the pending parameter the sequencer is about to
send, a page 0 to 7 before a data byte, and the addressing mode the last one sent. -/
def inStep (s : State) : Bool :=
  modeOk s && s.drf.noFault && decide (s.drf.pending = seqPending s.fbc.seq) &&
    (decide (s.fbc.seq ≠ .flush .data) || decide (s.drf.page.toNat ≤ 7)) &&
    (match (selectorScan (settledTrace s.fbc)).2 with
      | none => true
      | some m => decide (s.drf.addrMode = m))

/-- DRF is the fold of reception over the completed events, from the state it had (20_memory R70). -/
def drfIsFold (start : Drf) (s : State) : Prop :=
  inFlightOk s = true ∧ s.drf = (settledTrace s.fbc).foldl (fun d e => deliver e d) start

/-! ## What a flush sends (43_flush R183) -/

/-- The reposition group before an index. -/
def cursorGroup (i : Nat) : List Event :=
  [ .txn (commandTxn (colLowByte (colCnt (BitVec.ofNat 10 i)))),
    .txn (commandTxn (colHighByte (colCnt (BitVec.ofNat 10 i)))),
    .txn (commandTxn (pageByte (pageCnt (BitVec.ofNat 10 i)))) ]

/-- The events for one index: a group where one is due, then the data byte. -/
def flushEvents (st : Stride) (fb : Memory) (i : Nat) : List Event :=
  (if i % strideColumns st = 0 then cursorGroup i else []) ++ [.txn (dataTxn (Memory.read fb i))]

/-- The events of a whole DISPLAY. -/
def flushTrace (st : Stride) (fb : Memory) : List Event := (List.range Config.fbSize).flatMap (flushEvents st fb)

/-- The number of transactions of a DISPLAY: 1048 or 1408 (R183). -/
def flushCount : Stride → Nat
  | .every128 => 1048
  | .every8 => 1408

/-- The events of an INIT (41_init R150, R151). -/
def initTrace (sda scl : Byte) : List Event :=
  (if pinsSupplied sda scl then [.busConfig sda scl] else []) ++ [.busStart] ++
    initVector.map fun v => .txn (commandTxn v)

end Sys2Proof.Machine
end

