-- ==== Sys2Proof/Certificates/Slice0/Obligations.lean ====
section
/-! DEFINITION. The statements for the provers.  Each docstring names the rules of the spec it formalises; where it rests
on an inference the spec marks as its own, or on a choice of this model, it says so. -/

open Sys2Proof Sys2Proof.Machine

/-! ## Encodings -/

/-- Decoding the encoding of a well-formed instruction gives it back, at every value of every operand (30_encoding R92
to R106). -/
def Obligations.DecodeEncodeRoundTrip : Prop :=
  ∀ i : Instr, WellFormed i = true → decode (encode i) = .ok i

/-- What any port decodes is well formed, and its encoding is exactly the bits it was decoded from: no bit of a word, a
transaction or a command is dropped. -/
def Obligations.EncodeDecodeWords : Prop :=
  ∀ (w : Words) (i : Instr), decode w = .ok i → WellFormed i = true ∧ encode i = w

/-- Words of the spec and the instructions they stand for: 30_encoding R94, R105, 41_init R152, 95_test_vectors L2. -/
def Obligations.SampleWordsDecode : Prop :=
  decodeHost 0x1000FFFF = .init 0 0xFF 0xFF ∧ decodeHost 0x10000405 = .init 0 4 5 ∧
  decodeHost 0x207F3F01 = .setPixel 0 127 63 1 ∧ decodeHost 0x30000000 = .display 0 ∧
  decodeHost 0x90000000 = .hostReserved9 0 ∧
  decodeTxn 0x3C80AF = .txnCommand 0xAF ∧ decodeTxn 0x3C4081 = .txnData 0x81 ∧
  decodeTxn 0x3C00AE = .txnReservedCtrl 0x00 0xAE ∧ decodeTxn 0x3D80AE = .txnOtherAddress 0x3D 0x80 0xAE ∧
  decode (.send 0x3C80AF) = .ok (.sendCommand 0xAF) ∧
  decode (.command [0x08]) = .ok (.setColLow 8) ∧ decode (.command [0xB3]) = .ok (.setPage 3) ∧
  decode (.command [0x20, 0x02]) = .ok (.setAddrMode 0x02) ∧ decode (.command [0xA5]) = .ok .rsvdCmdA5A5

/-- The length of a command is known from its first byte: two bytes for the nine opcodes of 30_encoding R99 (marked there
as an inference from R96 and R98), one byte for every other value, and every value is in a row (R98). -/
def Obligations.CommandLengthFromFirstByte : Prop :=
  ∀ (b : Byte) (rest : List Byte),
    if b ∈ [0x20#8, 0x81#8, 0x8D#8, 0xA8#8, 0xD3#8, 0xD5#8, 0xD9#8, 0xDA#8, 0xDB#8] then
      decodeCommand [b] = .reject (.parameterMissing b) ∧
        ∀ v : Byte, ∃ i, decodeCommand (b :: v :: rest) = .ok (i, rest)
    else ∃ i, decodeCommand (b :: rest) = .ok (i, rest)

/-! ## Steps and decoding -/

/-- When bits stand where the step looks for them, the step is `exec` of the instruction they decode to: the host's word
at an idle port, a transaction or the bytes of a command at DRF, a bench's call of a primitive.  What the step adds is
named: the word or the input is taken from its list.  A bench's bits that are no primitive stop the machine.  Which of
them a step looks at first is the model's choice (log 7), the calls exist only for a bench (log 6), and no word is
accepted while a call is in progress (log 13). -/
def Obligations.StepRunsDecodedInstruction : Prop :=
  ∀ s : State,
    (∀ w rest, noArrival s = true → s.fbc.seq = .idle → s.calls = [] → s.program = w :: rest →
      step s = exec (decodeHost w) { s with program := rest }) ∧
    (∀ t rest, s.inputs = .txn t :: rest → step s = exec (decodeTxn t) { s with inputs := rest }) ∧
    (∀ bytes i rest, s.inputs = .command bytes :: rest → decodeCommand bytes = .ok (i, []) →
      step s = exec i { s with inputs := rest }) ∧
    (∀ bytes i b more rest, s.inputs = .command bytes :: rest → decodeCommand bytes = .ok (i, b :: more) →
      step s = exec i { s with inputs := .command (b :: more) :: rest }) ∧
    (∀ b rest, s.inputs = .command [b] :: rest → decodeCommand [b] = .reject (.parameterMissing b) →
      step s = exec (.txnCommand b) { s with inputs := rest }) ∧
    (∀ t i rest, s.inputs = .callSend t :: rest → decodeSend t = .ok i → step s = exec i { s with inputs := rest }) ∧
    (∀ t e rest, s.inputs = .callSend t :: rest → decodeSend t = .reject e → step s = .fault .notAPrimitive) ∧
    (∀ t i rest, s.inputs = .callCursor t :: rest → decodeCursor t = .ok i →
      step s = exec i { s with inputs := rest }) ∧
    (∀ t e rest, s.inputs = .callCursor t :: rest → decodeCursor t = .reject e → step s = .fault .notAPrimitive)

/-- The bits of a table row, placed where the next step fetches, are run by that step: in the state itself for everything
but an operation word, and for an operation word in the state put at rest with no arrival before it (log 4). -/
def Obligations.PlacedBitsRunNext : Prop :=
  ∀ (s : State) (nbits w : Nat) (i : Instr), decodeTableWord nbits w = some i →
    step (s.withFetchWord nbits w) =
      if nbits = 32 then
        exec i
          { s with
            calls := []
            inputs := s.inputs.dropWhile fun x => !x.isAnswer
            fbc := { s.fbc with seq := .idle, inFlight := false } }
      else exec i s

/-! ## The host port -/

/-- A busy block ignores operation words and does not lose them (30_encoding R91): no word has an effect, and a step of
the sequencer leaves the host's words as they are. -/
def Obligations.BusyPortIgnoresWords : Prop :=
  ∀ s : State, s.fbc.seq ≠ .idle →
    (∀ w : OpWord, exec (decodeHost w) s = .next s) ∧
    (∀ t, noArrival s = true → step s = .next t → t.program = s.program)

/-- SET_PIXEL at an idle port: with legal coordinates the byte `x + (y div 8) * 128` gets bit `y mod 8` set or cleared,
with illegal ones CoordRange is raised; nothing else changes (42_pixel R165, R167). -/
def Obligations.SetPixelWritesOneBit : Prop :=
  ∀ (ign : BitVec 4) (x y color : Byte) (s : State), s.fbc.seq = .idle → Memory.wf s.fbc.fb = true →
    ∃ t, exec (.setPixel ign x y color) s = .next t ∧
      if x.toNat ≤ 127 ∧ y.toNat ≤ 63 then
        t = { s with fbc := { s.fbc with fb := t.fbc.fb } } ∧
        (∀ a, Memory.read t.fbc.fb a =
          if a = x.toNat + y.toNat / 8 * 128 then
            if color ≠ 0 then Memory.read s.fbc.fb a ||| 1#8 <<< (y.toNat % 8)
            else Memory.read s.fbc.fb a &&& ~~~ (1#8 <<< (y.toNat % 8))
          else Memory.read s.fbc.fb a)
      else
        t = { s with fbc := { s.fbc with fCoord := stickyRaise s.fbc.fCoord (0x2#4 ++ ign ++ x ++ y ++ color) } }

/-- The document's properties of SET_PIXEL (42_pixel R168): the pixel reads back as written and no other changes; twice
is once; two different pixels commute; the last write to a pixel wins.  Parts (c) and (d) are marked there as inferences
from R165. -/
def Obligations.PixelLaws : Prop :=
  ∀ (x y c : Byte) (s : State), s.fbc.seq = .idle → Memory.wf s.fbc.fb = true → x.toNat ≤ 127 → y.toNat ≤ 63 →
    ∃ t, exec (.setPixel 0 x y c) s = .next t ∧
      (∀ x' y' : Nat, x' ≤ 127 → y' ≤ 63 →
        pixel t.fbc.fb x' y' = if x' = x.toNat ∧ y' = y.toNat then decide (c ≠ 0) else pixel s.fbc.fb x' y') ∧
      exec (.setPixel 0 x y c) t = .next t ∧
      (∀ (x' y' c' : Byte), x'.toNat ≤ 127 → y'.toNat ≤ 63 → (x', y') ≠ (x, y) →
        ∃ u v, exec (.setPixel 0 x' y' c') t = .next u ∧ exec (.setPixel 0 x' y' c') s = .next v ∧
          exec (.setPixel 0 x y c) v = .next u) ∧
      (∀ c' : Byte, exec (.setPixel 0 x y c') t = exec (.setPixel 0 x y c') s)

/-- CLEAR_DISPLAY at an idle port: every byte of the framebuffer is `0x00`, every pixel reads 0, nothing else changes,
bus started or not (44_mode_power_clear R205). -/
def Obligations.ClearDisplayZeroes : Prop :=
  ∀ (ign : BitVec 28) (s : State), s.fbc.seq = .idle →
    ∃ t, exec (.clearDisplay ign) s = .next t ∧
      t = { s with fbc := { s.fbc with fb := t.fbc.fb } } ∧
      (∀ a, a < 1024 → Memory.read t.fbc.fb a = 0x00) ∧
      (∀ x y : Nat, x ≤ 127 → y ≤ 63 → pixel t.fbc.fb x y = false) ∧
      exec (.clearDisplay ign) t = .next t

/-- The accepting step of the six operations that use the bus, INIT from any idle state and the other five once the bus
is started: the sequencer enters the operation's first position and nothing else changes (41_init R150, 43_flush R184,
44_mode_power_clear R200 to R204). -/
def Obligations.BusOperationsAccepted : Prop :=
  ∀ (ign : BitVec 28) (s : State), s.fbc.seq = .idle →
    (∀ (ign' : BitVec 12) (sda scl : Byte),
      exec (.init ign' sda scl) s = .next { s with fbc := { s.fbc with seq := .initCfg sda scl } }) ∧
    (s.fbc.busStarted = true →
      exec (.display ign) s = .next { s with fbc := { s.fbc with idx := 0, seq := .flush .curLo } } ∧
      exec (.setPageMode ign) s = .next { s with fbc := { s.fbc with seq := .mode .page 0 } } ∧
      exec (.setHorizontalMode ign) s = .next { s with fbc := { s.fbc with seq := .mode .horizontal 0 } } ∧
      exec (.setPowerOn ign) s = .next { s with fbc := { s.fbc with seq := .power true } } ∧
      exec (.setPowerOff ign) s = .next { s with fbc := { s.fbc with seq := .power false } })

/-- The five operations that need the bus, accepted before it is started: BusNotStarted with the operation word, nothing
emitted, no other change, still `IDLE` (40_bus_primitives R133, 70_reset_and_hazards R304). -/
def Obligations.BusOperationsBeforeInitRaise : Prop :=
  ∀ (ign : BitVec 28) (s : State), s.fbc.seq = .idle → s.fbc.busStarted = false →
    let raised (w : OpWord) : Result :=
      .next { s with fbc := { s.fbc with fBusNotStarted := stickyRaise s.fbc.fBusNotStarted w } }
    exec (.display ign) s = raised (0x3#4 ++ ign) ∧
    exec (.setPageMode ign) s = raised (0x5#4 ++ ign) ∧
    exec (.setHorizontalMode ign) s = raised (0x6#4 ++ ign) ∧
    exec (.setPowerOn ign) s = raised (0x7#4 ++ ign) ∧
    exec (.setPowerOff ign) s = raised (0x8#4 ++ ign)

/-- A reserved host opcode at an idle port: BadOp with the operation word, nothing else (30_encoding R95). -/
def Obligations.ReservedHostWordsRaise : Prop :=
  ∀ (ign : BitVec 28) (s : State), s.fbc.seq = .idle →
    let raised (w : OpWord) : Result := .next { s with fbc := { s.fbc with fBadop := stickyRaise s.fbc.fBadop w } }
    exec (.hostReserved0 ign) s = raised (0x0#4 ++ ign) ∧
    exec (.hostReserved9 ign) s = raised (0x9#4 ++ ign) ∧
    exec (.hostReservedA ign) s = raised (0xA#4 ++ ign) ∧
    exec (.hostReservedB ign) s = raised (0xB#4 ++ ign) ∧
    exec (.hostReservedC ign) s = raised (0xC#4 ++ ign) ∧
    exec (.hostReservedD ign) s = raised (0xD#4 ++ ign) ∧
    exec (.hostReservedE ign) s = raised (0xE#4 ++ ign) ∧
    exec (.hostReservedF ign) s = raised (0xF#4 ++ ign)

/-- The ignored bits of an operation word have no effect where no fault latches the word (30_encoding R95). -/
def Obligations.IgnoredBitsHaveNoEffect : Prop :=
  ∀ (ign : BitVec 28) (s : State),
    (∀ (ign' : BitVec 12) (sda scl : Byte), exec (.init ign' sda scl) s = exec (.init 0 sda scl) s) ∧
    (∀ (ign' : BitVec 4) (x y color : Byte), x.toNat ≤ 127 → y.toNat ≤ 63 →
      exec (.setPixel ign' x y color) s = exec (.setPixel 0 x y color) s) ∧
    exec (.clearDisplay ign) s = exec (.clearDisplay 0) s ∧
    (s.fbc.busStarted = true →
      exec (.display ign) s = exec (.display 0) s ∧
      exec (.setPageMode ign) s = exec (.setPageMode 0) s ∧
      exec (.setHorizontalMode ign) s = exec (.setHorizontalMode 0) s ∧
      exec (.setPowerOn ign) s = exec (.setPowerOn 0) s ∧
      exec (.setPowerOff ign) s = exec (.setPowerOff 0) s)

/-- What the accepting step of any operation word leaves unchanged: everything but the framebuffer byte of SET_PIXEL, the
framebuffer for CLEAR_DISPLAY, the flush counter for DISPLAY, the sequencer position for the six bus operations, and the
one fault flag the word can raise (10_state R30, 20_memory R65). -/
def Obligations.HostOperationsFrame : Prop :=
  ∀ (w : OpWord) (s t : State), exec (decodeHost w) s = .next t →
    let opc := w.extractLsb' 28 4
    t.drf = s.drf ∧ t.stride = s.stride ∧ t.program = s.program ∧ t.calls = s.calls ∧ t.inputs = s.inputs ∧
    t.freeCount = s.freeCount ∧ t.fbc.modeFlag = s.fbc.modeFlag ∧ t.fbc.busStarted = s.fbc.busStarted ∧
    t.fbc.pins = s.fbc.pins ∧
    t.fbc.trace = s.fbc.trace ∧ t.fbc.inFlight = s.fbc.inFlight ∧
    (opc ≠ 3 → t.fbc.idx = s.fbc.idx) ∧
    (opc ≠ 1 → opc ≠ 3 → opc ≠ 5 → opc ≠ 6 → opc ≠ 7 → opc ≠ 8 → t.fbc.seq = s.fbc.seq) ∧
    (opc ≠ 2 → t.fbc.fCoord = s.fbc.fCoord) ∧
    (1 ≤ opc → opc ≤ 8 → t.fbc.fBadop = s.fbc.fBadop) ∧
    (opc ≠ 3 → opc ≠ 5 → opc ≠ 6 → opc ≠ 7 → opc ≠ 8 → t.fbc.fBusNotStarted = s.fbc.fBusNotStarted) ∧
    (opc ≠ 2 → opc ≠ 4 → ∀ a, Memory.read t.fbc.fb a = Memory.read s.fbc.fb a) ∧
    (opc = 2 → ∀ a, a ≠ (pixelIndex (w.extractLsb' 16 8) (w.extractLsb' 8 8)).toNat →
      Memory.read t.fbc.fb a = Memory.read s.fbc.fb a)

/-! ## Whole operations, under a transport that answers -/

/-- INIT from its acceptance to `IDLE`, 29 steps, every event delivered: the pins if both are given, the bus started, the
mode flag horizontal, the events of 41_init R150 and R151 in order, and DRF as R155 says (marked there as an inference
from R151 and 45_display_register_fsm); nothing else changes. -/
def Obligations.InitRuns : Prop :=
  ∀ (ign : BitVec 12) (sda scl : Byte) (s : State) (prog : List OpWord) (rest : List Input),
    presents s (0x1#4 ++ ign ++ sda ++ scl) prog → s.drf.pending = none →
    let custom := 0 ≤ sda.toInt ∧ 0 ≤ scl.toInt
    s.inputs = List.replicate (if custom then 28 else 27) .done ++ rest →
    steps 29 s = .next
      { s with
        program := prog
        inputs := rest
        fbc :=
          { s.fbc with
            seq := .idle
            busStarted := true
            pins := if custom then .custom sda scl else s.fbc.pins
            modeFlag := .horizontal
            trace := s.fbc.trace ++ (if custom then [.busConfig sda scl] else []) ++ [.busStart] ++
              ([0xAE, 0xD5, 0x80, 0xA8, 0x3F, 0xD3, 0x00, 0x40, 0x8D, 0x14, 0x20, 0x00, 0xA1, 0xC8, 0xDA, 0x12,
                0x81, 0xCF, 0xD9, 0xF1, 0xDB, 0x40, 0xA4, 0xA6, 0x2E, 0xAF] : List Byte).map
                  fun v => .txn ⟨0x3C, 0x80, v⟩ }
        drf :=
          { s.drf with
            displayOn := true, addrMode := .horizontal, clkDiv := 0x80, muxRatio := 0x3F, dispOffset := 0x00,
            startLineCmd := 0x40, chargePump := 0x14, segRemapCmd := 0xA1, comScanCmd := 0xC8, comPins := 0x12,
            contrast := 0xCF, precharge := 0xF1, vcomLevel := 0x40, entireOn := false, inverse := false,
            scrollActive := false } }

/-- The events of a DISPLAY for each stride (43_flush R183, marked there as an inference from R180 and R182): the shape
for stride 128, the counts for both strides, and the data payloads, which are the framebuffer's bytes in rising index
order. -/
def Obligations.FlushTraceShape : Prop :=
  ∀ fb : Memory,
    flushTrace .every128 fb =
      (List.range 8).flatMap (fun p =>
        [.txn ⟨0x3C, 0x80, 0x00⟩, .txn ⟨0x3C, 0x80, 0x10⟩, .txn ⟨0x3C, 0x80, 0xB0#8 ||| BitVec.ofNat 8 p⟩] ++
          (List.range 128).map fun c => .txn ⟨0x3C, 0x40, Memory.read fb (128 * p + c)⟩) ∧
    ∀ st,
      ((flushTrace st fb).filterMap fun e =>
        match e with
        | .txn t => if t.ctrl = 0x40 then some t.payload else none
        | .busConfig _ _ => none
        | .busStart => none) = (List.range 1024).map (Memory.read fb) ∧
      (flushTrace st fb).length = (match st with | .every128 => 1048 | .every8 => 1408)

/-- DISPLAY from its acceptance to `IDLE`, for either stride, whatever the transport does to the transactions and
whatever DRF makes of them: FBC sends exactly the events of `flushTrace` and changes nothing else of its own, but that
the flush counter ends as a free value (43_flush R183, R187; 10_state R23; log 8). -/
def Obligations.DisplaySends : Prop :=
  ∀ (ign : BitVec 28) (s : State) (prog : List OpWord) (answers rest : List Input),
    presents s (0x3#4 ++ ign) prog → s.fbc.busStarted = true →
    (∀ x ∈ answers, x = .done ∨ x = .lost) → answers.length = flushCount s.stride → s.inputs = answers ++ rest →
    ∃ t, steps (flushCount s.stride + 1) s = .next t ∧
      t = { s with
            program := prog
            inputs := rest
            freeCount := s.freeCount + 1
            drf := t.drf
            fbc :=
              { s.fbc with
                trace := s.fbc.trace ++ flushTrace s.stride s.fbc.fb
                idx := Config.idxOutsideFlush s.freeCount } }

/-- After a DISPLAY whose transactions are all delivered to a DRF with nothing pending, the display RAM is the
framebuffer, for either stride and either addressing mode; the cursor is at column 0, page 0 or 7; nothing else of DRF
changes, so no fault is raised (43_flush R186, marked there as an inference; the column after 127 in page mode is log 11). -/
def Obligations.DisplayMirrorsFramebuffer : Prop :=
  ∀ (ign : BitVec 28) (s : State) (prog : List OpWord) (rest : List Input),
    presents s (0x3#4 ++ ign) prog → s.fbc.busStarted = true → memoryOk s = true → s.drf.pending = none →
    s.inputs = List.replicate (flushCount s.stride) .done ++ rest →
    ∃ t, steps (flushCount s.stride + 1) s = .next t ∧ t.fbc.seq = .idle ∧
      (∀ a, a < 1024 → Memory.read t.drf.gddram a = Memory.read s.fbc.fb a) ∧
      t.drf =
        { s.drf with
          gddram := s.fbc.fb
          col := 0
          page := match s.drf.addrMode with | .horizontal => 0 | .page => 7 }

/-- After such a DISPLAY of a panel that is on, with the latches as INIT leaves them, the panel shows the framebuffer,
pixel by pixel (10_state R43, 43_flush R186). -/
def Obligations.PanelShowsFramebuffer : Prop :=
  ∀ (ign : BitVec 28) (s : State) (prog : List OpWord) (rest : List Input),
    presents s (0x3#4 ++ ign) prog → s.fbc.busStarted = true → memoryOk s = true → s.drf.pending = none →
    s.drf.displayOn = true → initLatches s.drf = true →
    s.inputs = List.replicate (flushCount s.stride) .done ++ rest →
    ∃ t, steps (flushCount s.stride + 1) s = .next t ∧ initLatches t.drf = true ∧
      ∀ x y : Nat, x ≤ 127 → y ≤ 63 → lit t.drf x y = pixel t.fbc.fb x y ∧ lit t.drf x y = pixel s.fbc.fb x y

/-- SET_PAGE_MODE and SET_HORIZONTAL_MODE whole (44_mode_power_clear R200, R201): before the bus is started
BusNotStarted; with both transactions delivered the two bytes on the trace, the flag and DRF's mode written and nothing
else; with either transaction hanging the flag as it was and the position kept. -/
def Obligations.ModeOperationsRun : Prop :=
  ∀ (m : Mode) (ign : BitVec 28) (s : State) (prog : List OpWord) (rest : List Input),
    let opc : BitVec 4 := match m with | .page => 0x5 | .horizontal => 0x6
    let selector : Byte := match m with | .page => 0x02 | .horizontal => 0x00
    presents s (opc ++ ign) prog → noArrival s = true →
    (s.fbc.busStarted = false →
      step s = .next
        { s with
          program := prog
          fbc := { s.fbc with fBusNotStarted := stickyRaise s.fbc.fBusNotStarted (opc ++ ign) } }) ∧
    (s.fbc.busStarted = true → s.inputs = .done :: .done :: rest → s.drf.pending = none →
      steps 3 s = .next
        { s with
          program := prog
          inputs := rest
          fbc :=
            { s.fbc with
              modeFlag := m
              trace := s.fbc.trace ++ [.txn ⟨0x3C, 0x80, 0x20⟩, .txn ⟨0x3C, 0x80, selector⟩] }
          drf := { s.drf with addrMode := m } }) ∧
    (s.fbc.busStarted = true → s.inputs = [] → ∀ n, ∃ t, steps (n + 2) s = .next t ∧
      t.fbc.seq = .mode m 0 ∧ t.fbc.modeFlag = s.fbc.modeFlag) ∧
    (s.fbc.busStarted = true → s.inputs = [.done] → ∀ n, ∃ t, steps (n + 3) s = .next t ∧
      t.fbc.seq = .mode m 1 ∧ t.fbc.modeFlag = s.fbc.modeFlag)

/-- SET_POWER_ON and SET_POWER_OFF whole (44_mode_power_clear R203 and R204): before the bus is started BusNotStarted; with
the transaction delivered one byte on the trace, the panel's state written and nothing else of either half. -/
def Obligations.PowerOperationsRun : Prop :=
  ∀ (on : Bool) (ign : BitVec 28) (s : State) (prog : List OpWord) (rest : List Input),
    let opc : BitVec 4 := if on then 0x7 else 0x8
    presents s (opc ++ ign) prog → noArrival s = true →
    (s.fbc.busStarted = false →
      step s = .next
        { s with
          program := prog
          fbc := { s.fbc with fBusNotStarted := stickyRaise s.fbc.fBusNotStarted (opc ++ ign) } }) ∧
    (s.fbc.busStarted = true → s.inputs = .done :: rest → s.drf.pending = none →
      steps 2 s = .next
        { s with
          program := prog
          inputs := rest
          fbc := { s.fbc with trace := s.fbc.trace ++ [.txn ⟨0x3C, 0x80, if on then 0xAF else 0xAE⟩] }
          drf := { s.drf with displayOn := on } })

/-- The sequencer's flush table (43_flush R184), one row per clause, each transaction complete and delivered at once; the
flush counter is a free value after the last byte (log 8). -/
def Obligations.FlushStepTable : Prop :=
  ∀ (s : State) (rest : List Input), s.fbc.inFlight = false → s.inputs = .done :: rest →
    let c := s.fbc.idx.toNat % 128
    let p := s.fbc.idx.toNat / 128
    let sent (t : Txn) (seq : Seq) (idx : RamAddr) (free : Nat) : Result :=
      .next
        { s with
          inputs := rest
          freeCount := free
          drf := receive t s.drf
          fbc := { s.fbc with seq := seq, idx := idx, trace := s.fbc.trace ++ [.txn t] } }
    let data : Txn := ⟨0x3C, 0x40, Memory.read s.fbc.fb s.fbc.idx.toNat⟩
    (s.fbc.seq = .flush .curLo →
      step s = sent ⟨0x3C, 0x80, BitVec.ofNat 8 (c % 16)⟩ (.flush .curHi) s.fbc.idx s.freeCount) ∧
    (s.fbc.seq = .flush .curHi →
      step s = sent ⟨0x3C, 0x80, BitVec.ofNat 8 (0x10 + c / 16)⟩ (.flush .curPg) s.fbc.idx s.freeCount) ∧
    (s.fbc.seq = .flush .curPg →
      step s = sent ⟨0x3C, 0x80, BitVec.ofNat 8 (0xB0 + p)⟩ (.flush .data) s.fbc.idx s.freeCount) ∧
    (s.fbc.seq = .flush .data → s.fbc.idx.toNat < 1023 →
      step s =
        sent data (if (s.fbc.idx.toNat + 1) % strideColumns s.stride = 0 then .flush .curLo else .flush .data)
          (s.fbc.idx + 1) s.freeCount) ∧
    (s.fbc.seq = .flush .data → s.fbc.idx.toNat = 1023 →
      step s = sent data .idle (Config.idxOutsideFlush s.freeCount) (s.freeCount + 1))

/-- A reposition group stands for the primitive: at an index where one is due, the three events before the data byte are
those `setCursorXY` of the column unit and the page of that index emits (43_flush R184, 30_encoding R100). -/
def Obligations.RepositionGroupIsSetCursor : Prop :=
  ∀ (st : Stride) (i : Nat) (fb : Memory) (s : State) (rest : List Input),
    i < 1024 → i % strideColumns st = 0 → atRest s = true → s.inputs = .done :: .done :: .done :: rest →
    ∃ t, exec (.setCursorXY (BitVec.ofNat 4 (i % 128 / 8)) (BitVec.ofNat 4 (i / 128))) s = .next t ∧
      t.fbc.trace ++ [.txn ⟨0x3C, 0x40, Memory.read fb i⟩] = s.fbc.trace ++ flushEvents st fb i

/-! ## The primitives -/

/-- sendCommand and sendData called by a bench (log 6) of a block at rest (40_bus_primitives R130, R131): the transaction
is appended to the trace; when the transport completes it, it has reached DRF (or, where delivery fails, it has not, which
changes nothing in FBC); when the transport does not complete it, it stays in flight and the call in progress (log 9), and
no answer, the list empty or an arrival next, is a transport that does not complete (log 5); a call that was held ends when
the transport completes it. -/
def Obligations.PrimitivesSend : Prop :=
  ∀ (v : Byte) (s : State), atRest s = true →
    ∀ i t, (i = .sendCommand v ∧ t = ⟨0x3C, 0x80, v⟩) ∨ (i = .sendData v ∧ t = ⟨0x3C, 0x40, v⟩) →
      let fbc := { s.fbc with trace := s.fbc.trace ++ [.txn t] }
      let held := { s with calls := [.txn t], fbc := { fbc with inFlight := true } }
      (∀ rest, s.inputs = .done :: rest →
        exec i s = .next { s with inputs := rest, fbc := fbc, drf := receive t s.drf }) ∧
      (∀ rest, s.inputs = .lost :: rest → exec i s = .next { s with inputs := rest, fbc := fbc }) ∧
      (∀ rest, s.inputs = .wait :: rest → exec i s = .next { held with inputs := rest }) ∧
      (noArrival s = false ∨ s.inputs = [] → exec i s = .next held) ∧
      (∀ rest, s.inputs = .wait :: .done :: rest →
        ∃ u, exec i s = .next u ∧ step u = .next { s with inputs := rest, fbc := fbc, drf := receive t s.drf })

/-- A bench's call of a primitive waits for its turn (20_memory R70: each emit completes before the next begins).  That it
waits for `IDLE` and for the calls before it, and the host's words for it, is the model's choice (log 13).  While the
sequencer is busy the call only joins the calls; from any state whose event in flight is the one whose turn it is, the
trace and what the calls have still to emit grow together by exactly the call's events, and neither the call nor the steps
in which it goes on drop an event, emit one twice or take a word of the host. -/
def Obligations.PrimitivesWaitForTheirTurn : Prop :=
  (∀ (v : Byte) (cu pg : BitVec 4) (s : State) (i : Instr) (es : List Event),
    (i, es) ∈
      [ (Instr.sendCommand v, [Event.txn ⟨0x3C, 0x80, v⟩]),
        (Instr.sendData v, [Event.txn ⟨0x3C, 0x40, v⟩]),
        (Instr.setCursorXY cu pg,
          [ Event.txn ⟨0x3C, 0x80, BitVec.ofNat 8 (8 * cu.toNat % 16)⟩,
            Event.txn ⟨0x3C, 0x80, BitVec.ofNat 8 (0x10 + 8 * cu.toNat / 16)⟩,
            Event.txn ⟨0x3C, 0x80, BitVec.ofNat 8 (0xB0 + pg.toNat)⟩ ]) ] →
      (s.fbc.seq ≠ .idle → exec i s = .next { s with calls := s.calls ++ es }) ∧
      (inFlightOk s = true →
        ∃ t, exec i s = .next t ∧ inFlightOk t = true ∧
          t.fbc.trace ++ unsentCalls t = s.fbc.trace ++ unsentCalls s ++ es)) ∧
  (∀ s t : State, noArrival s = true → s.fbc.seq = .idle → s.calls ≠ [] → inFlightOk s = true → step s = .next t →
    t.fbc.trace ++ unsentCalls t = s.fbc.trace ++ unsentCalls s ∧ t.fbc.seq = .idle ∧ t.program = s.program)

/-- setCursorXY called by a bench (log 6) of a block at rest, every transaction delivered (40_bus_primitives R132): the
three bytes on the trace in order, and with nothing pending DRF's cursor at column `8 * column_unit` and the page, which
changes nothing where the cursor is there already (45_display_register_fsm R250, an inference); nothing else.  At once if
the transport completes each at once; if it lets any of them wait, in the steps that follow. -/
def Obligations.SetCursorPositions : Prop :=
  ∀ (cu pg : BitVec 4) (s : State), atRest s = true →
    let sent (rest : List Input) (d : Drf) : State :=
      { s with
        inputs := rest
        drf := d
        fbc :=
          { s.fbc with
            trace := s.fbc.trace ++
              [ .txn ⟨0x3C, 0x80, BitVec.ofNat 8 (8 * cu.toNat % 16)⟩,
                .txn ⟨0x3C, 0x80, BitVec.ofNat 8 (0x10 + 8 * cu.toNat / 16)⟩,
                .txn ⟨0x3C, 0x80, BitVec.ofNat 8 (0xB0 + pg.toNat)⟩ ] } }
    let positioned (d : Drf) : Prop :=
      s.drf.pending = none →
        d = { s.drf with col := BitVec.ofNat 7 (8 * cu.toNat), page := pg } ∧
        (s.drf.col.toNat = 8 * cu.toNat → s.drf.page = pg → d = s.drf)
    (∀ rest, s.inputs = .done :: .done :: .done :: rest →
      ∃ d, exec (.setCursorXY cu pg) s = .next (sent rest d) ∧ positioned d) ∧
    (∀ (k0 k1 k2 : Nat) (rest : List Input),
      s.inputs =
        List.replicate k0 .wait ++ .done :: (List.replicate k1 .wait ++ .done ::
          (List.replicate k2 .wait ++ .done :: rest)) →
      ∃ u n d, exec (.setCursorXY cu pg) s = .next u ∧ steps n u = .next (sent rest d) ∧ positioned d)

/-- Every operation ends, under the named premise `bus_progress` for the 1408 transactions of the longest one (20_memory
R74; the count is 70_reset_and_hazards R320, marked there as an inference): from any position of the sequencer the block
reaches `IDLE`, in a number of steps that the answers bound, with the host's words still to come. -/
def Obligations.OperationsEnd : Prop :=
  ∀ s : State, s.fbc.seq ≠ .idle → busProgress 1408 s = true →
    ∃ n t, n ≤ s.inputs.length + 1 ∧ steps n s = .next t ∧ t.fbc.seq = .idle ∧ t.program = s.program

/-- What a call of a primitive leaves unchanged, met by a busy sequencer or by a block at rest, whatever the transport
answers: all of FBC but the trace and whether an event is in flight, the configuration and the host's words; of memory
every framebuffer byte, every display RAM byte for a command, and every display RAM byte but the one under the cursor for a
data byte (40_bus_primitives R130 to R132). -/
def Obligations.PrimitivesFrame : Prop :=
  ∀ (v : Byte) (cu pg : BitVec 4) (s t : State), (s.fbc.seq = .idle → atRest s = true) →
    ∀ i ∈ [.sendCommand v, .sendData v, .setCursorXY cu pg], exec i s = .next t →
      t.fbc = { s.fbc with trace := t.fbc.trace, inFlight := t.fbc.inFlight } ∧
      t.stride = s.stride ∧ t.program = s.program ∧ t.freeCount = s.freeCount ∧
      (∀ a, Memory.read t.fbc.fb a = Memory.read s.fbc.fb a) ∧
      (i ≠ .sendData v → ∀ a, Memory.read t.drf.gddram a = Memory.read s.drf.gddram a) ∧
      (i = .sendData v → ∀ a, a ≠ (cursorAddr s.drf).toNat →
        Memory.read t.drf.gddram a = Memory.read s.drf.gddram a)

/-! ## What DRF makes of a transaction -/

/-- A transaction to another address changes nothing (45_display_register_fsm R221); a reserved control byte raises
RsvdCtrl with the transaction and changes nothing else, `pending` keeps its value (R222). -/
def Obligations.OtherAddressAndReservedControl : Prop :=
  ∀ (a : BitVec 7) (c p : Byte) (s : State),
    (a ≠ 0x3C → decodeTxn (a ++ c ++ p) = .txnOtherAddress a c p ∧ exec (.txnOtherAddress a c p) s = .next s) ∧
    (c ≠ 0x80 → c ≠ 0x40 →
      decodeTxn (0x3C#7 ++ c ++ p) = .txnReservedCtrl c p ∧
      exec (.txnReservedCtrl c p) s = .next
        { s with drf := { s.drf with fRsvdCtrl := stickyRaise s.drf.fRsvdCtrl (0x3C#7 ++ c ++ p) } })

/-- A command at DRF's decoder is its transactions received one after the other, whatever is pending: a one-byte command
is one TXN_COMMAND, a two-byte command is two (30_encoding R99, 45_display_register_fsm R223; log 14). -/
def Obligations.CommandIsItsTransactions : Prop :=
  ∀ (i : Instr) (b v : Byte) (s : State),
    (decode (.command [b]) = .ok i → exec i s = exec (.txnCommand b) s) ∧
    (decode (.command [b, v]) = .ok i →
      ∃ t, exec (.txnCommand b) s = .next t ∧ exec i s = exec (.txnCommand v) t)

/-- A data byte received (45_display_register_fsm R245, R246, R249): with a parameter pending Proto, else with a page
above 7 RamRange, else the byte is stored under the cursor, in horizontal mode the cursor advances column then page and
wraps at the end, and in page mode the page stays.  The information word is the transaction (60_exceptions R271; log
15). -/
def Obligations.DataByteReceived : Prop :=
  ∀ (v : Byte) (s : State), Memory.wf s.drf.gddram = true →
    ∃ t, exec (.txnData v) s = .next t ∧
      if s.drf.pending ≠ none then
        t = { s with drf := { s.drf with fProto := stickyRaise s.drf.fProto (0x3C#7 ++ 0x40#8 ++ v) } }
      else if 7 < s.drf.page.toNat then
        t = { s with drf := { s.drf with fRamRange := stickyRaise s.drf.fRamRange (0x3C#7 ++ 0x40#8 ++ v) } }
      else
        t = { s with drf := { s.drf with gddram := t.drf.gddram, col := t.drf.col, page := t.drf.page } } ∧
        (∀ a, Memory.read t.drf.gddram a =
          if a = s.drf.col.toNat + s.drf.page.toNat * 128 then v else Memory.read s.drf.gddram a) ∧
        (s.drf.col.toNat < 127 → t.drf.col.toNat = s.drf.col.toNat + 1 ∧ t.drf.page = s.drf.page) ∧
        (s.drf.addrMode = .horizontal → s.drf.col.toNat = 127 →
          t.drf.col = 0 ∧ t.drf.page.toNat = (s.drf.page.toNat + 1) % 8) ∧
        (s.drf.addrMode = .page → t.drf.page = s.drf.page)

/-- The column after 127 in page mode: 0, the page unchanged (45_display_register_fsm R247; the spec supplies the wrap
"from general knowledge, not in source", 93_implementation_defined G2; log 11). -/
def Obligations.PageModeColumnWraps : Prop :=
  ∀ (v : Byte) (s : State), s.drf.pending = none → s.drf.page.toNat ≤ 7 → s.drf.addrMode = .page →
    s.drf.col.toNat = 127 →
    exec (.txnData v) s = .next
      { s with
        drf := { s.drf with gddram := Memory.write s.drf.gddram (127 + s.drf.page.toNat * 128) v, col := 0 } }

/-- The cursor commands with nothing pending (45_display_register_fsm R224 to R226): the low nibble, the three high bits,
the refused high nibbles, whose information word is the transaction (60_exceptions R271; log 15), the page. -/
def Obligations.CursorCommands : Prop :=
  ∀ s : State, s.drf.pending = none →
    (∀ n, ∃ t, exec (.setColLow n) s = .next t ∧ t = { s with drf := { s.drf with col := t.drf.col } } ∧
      t.drf.col.extractLsb' 0 4 = n ∧ t.drf.col.extractLsb' 4 3 = s.drf.col.extractLsb' 4 3) ∧
    (∀ n, ∃ t, exec (.setColHigh n) s = .next t ∧ t = { s with drf := { s.drf with col := t.drf.col } } ∧
      t.drf.col.extractLsb' 4 3 = n ∧ t.drf.col.extractLsb' 0 4 = s.drf.col.extractLsb' 0 4) ∧
    (∀ n, exec (.setColHighOutOfRange n) s = .next
      { s with
        drf :=
          { s.drf with
            fColRange := stickyRaise s.drf.fColRange (0x3C#7 ++ 0x80#8 ++ (0x18#8 ||| n.setWidth 8)) } }) ∧
    (∀ n, exec (.setPage n) s = .next { s with drf := { s.drf with page := n } })

/-- The one-byte commands with nothing pending, each writing its one register and nothing else (45_display_register_fsm
R228, R229, R232 to R234, R236 to R238). -/
def Obligations.OneByteCommands : Prop :=
  ∀ s : State, s.drf.pending = none →
    exec .stopScroll s = .next { s with drf := { s.drf with scrollActive := false } } ∧
    exec .startLine s = .next { s with drf := { s.drf with startLineCmd := 0x40 } } ∧
    exec .segRemap s = .next { s with drf := { s.drf with segRemapCmd := 0xA1 } } ∧
    exec .displayAllOnResume s = .next { s with drf := { s.drf with entireOn := false } } ∧
    exec .normalDisplay s = .next { s with drf := { s.drf with inverse := false } } ∧
    exec .displayOff s = .next { s with drf := { s.drf with displayOn := false } } ∧
    exec .displayOn s = .next { s with drf := { s.drf with displayOn := true } } ∧
    exec .comScanDir s = .next { s with drf := { s.drf with comScanCmd := 0xC8 } }

/-- The eight two-byte configuration commands (45_display_register_fsm R230, R231, R235, R239, R241 to R244): the opcode
byte only waits, the parameter byte is stored unexamined, and the command whole does both. -/
def Obligations.ParameterCommands : Prop :=
  (∀ v s, s.drf.pending = none →
    exec (.txnCommand 0x81) s = .next { s with drf := { s.drf with pending := some .contrast } } ∧
    exec (.setContrast v) s = .next { s with drf := { s.drf with contrast := v } }) ∧
  (∀ v s, s.drf.pending = some .contrast →
    exec (.txnCommand v) s = .next { s with drf := { s.drf with pending := none, contrast := v } }) ∧
  (∀ v s, s.drf.pending = none →
    exec (.txnCommand 0x8D) s = .next { s with drf := { s.drf with pending := some .chargePump } } ∧
    exec (.chargePump v) s = .next { s with drf := { s.drf with chargePump := v } }) ∧
  (∀ v s, s.drf.pending = some .chargePump →
    exec (.txnCommand v) s = .next { s with drf := { s.drf with pending := none, chargePump := v } }) ∧
  (∀ v s, s.drf.pending = none →
    exec (.txnCommand 0xA8) s = .next { s with drf := { s.drf with pending := some .muxRatio } } ∧
    exec (.setMuxRatio v) s = .next { s with drf := { s.drf with muxRatio := v } }) ∧
  (∀ v s, s.drf.pending = some .muxRatio →
    exec (.txnCommand v) s = .next { s with drf := { s.drf with pending := none, muxRatio := v } }) ∧
  (∀ v s, s.drf.pending = none →
    exec (.txnCommand 0xD3) s = .next { s with drf := { s.drf with pending := some .dispOffset } } ∧
    exec (.setDisplayOffset v) s = .next { s with drf := { s.drf with dispOffset := v } }) ∧
  (∀ v s, s.drf.pending = some .dispOffset →
    exec (.txnCommand v) s = .next { s with drf := { s.drf with pending := none, dispOffset := v } }) ∧
  (∀ v s, s.drf.pending = none →
    exec (.txnCommand 0xD5) s = .next { s with drf := { s.drf with pending := some .clkDiv } } ∧
    exec (.setClockDiv v) s = .next { s with drf := { s.drf with clkDiv := v } }) ∧
  (∀ v s, s.drf.pending = some .clkDiv →
    exec (.txnCommand v) s = .next { s with drf := { s.drf with pending := none, clkDiv := v } }) ∧
  (∀ v s, s.drf.pending = none →
    exec (.txnCommand 0xD9) s = .next { s with drf := { s.drf with pending := some .precharge } } ∧
    exec (.setPrecharge v) s = .next { s with drf := { s.drf with precharge := v } }) ∧
  (∀ v s, s.drf.pending = some .precharge →
    exec (.txnCommand v) s = .next { s with drf := { s.drf with pending := none, precharge := v } }) ∧
  (∀ v s, s.drf.pending = none →
    exec (.txnCommand 0xDA) s = .next { s with drf := { s.drf with pending := some .comPins } } ∧
    exec (.setComPins v) s = .next { s with drf := { s.drf with comPins := v } }) ∧
  (∀ v s, s.drf.pending = some .comPins →
    exec (.txnCommand v) s = .next { s with drf := { s.drf with pending := none, comPins := v } }) ∧
  (∀ v s, s.drf.pending = none →
    exec (.txnCommand 0xDB) s = .next { s with drf := { s.drf with pending := some .vcomLevel } } ∧
    exec (.setVcomLevel v) s = .next { s with drf := { s.drf with vcomLevel := v } }) ∧
  (∀ v s, s.drf.pending = some .vcomLevel →
    exec (.txnCommand v) s = .next { s with drf := { s.drf with pending := none, vcomLevel := v } })

/-- The addressing mode command (45_display_register_fsm R227): the opcode waits, selector `0x00` is horizontal, `0x02`
page, any other raises BadSelector, its information word the parameter's transaction (60_exceptions R271; log 15), and
leaves the mode; as one command or byte by byte. -/
def Obligations.AddressingModeSelector : Prop :=
  ∀ (v : Byte) (s : State),
    let info : TxnWord := 0x3C#7 ++ 0x80#8 ++ v
    let selected (d : Drf) : Drf :=
      if v = 0x00 then { d with addrMode := .horizontal }
      else if v = 0x02 then { d with addrMode := .page }
      else { d with fBadSelector := stickyRaise d.fBadSelector info }
    (s.drf.pending = none →
      exec (.txnCommand 0x20) s = .next { s with drf := { s.drf with pending := some .addrMode } } ∧
      exec (.setAddrMode v) s = .next { s with drf := selected s.drf }) ∧
    (s.drf.pending = some .addrMode →
      exec (.txnCommand v) s = .next { s with drf := selected { s.drf with pending := none } })

/-- A reserved command byte with nothing pending raises RsvdCmd, its information word the transaction (60_exceptions R271;
log 15); `pending` stays `NONE` and nothing else changes (45_display_register_fsm R248): all 191 values, row by row. -/
def Obligations.ReservedCommandBytesRaise : Prop :=
  ∀ s : State, s.drf.pending = none →
    let raised (b : Byte) : Result :=
      .next { s with drf := { s.drf with fRsvdCmd := stickyRaise s.drf.fRsvdCmd (0x3C#7 ++ 0x80#8 ++ b) } }
    exec .rsvdCmd2121 s = raised 0x21 ∧
    (∀ n : BitVec 1, exec (.rsvdCmd2223 n) s = raised (0x22#8 ||| n.setWidth 8)) ∧
    (∀ n : BitVec 2, exec (.rsvdCmd2427 n) s = raised (0x24#8 ||| n.setWidth 8)) ∧
    (∀ n : BitVec 2, exec (.rsvdCmd282B n) s = raised (0x28#8 ||| n.setWidth 8)) ∧
    (∀ n : BitVec 1, exec (.rsvdCmd2C2D n) s = raised (0x2C#8 ||| n.setWidth 8)) ∧
    exec .rsvdCmd2F2F s = raised 0x2F ∧
    (∀ n : BitVec 4, exec (.rsvdCmd303F n) s = raised (0x30#8 ||| n.setWidth 8)) ∧
    exec .rsvdCmd4141 s = raised 0x41 ∧
    (∀ n : BitVec 1, exec (.rsvdCmd4243 n) s = raised (0x42#8 ||| n.setWidth 8)) ∧
    (∀ n : BitVec 2, exec (.rsvdCmd4447 n) s = raised (0x44#8 ||| n.setWidth 8)) ∧
    (∀ n : BitVec 3, exec (.rsvdCmd484F n) s = raised (0x48#8 ||| n.setWidth 8)) ∧
    (∀ n : BitVec 4, exec (.rsvdCmd505F n) s = raised (0x50#8 ||| n.setWidth 8)) ∧
    (∀ n : BitVec 5, exec (.rsvdCmd607F n) s = raised (0x60#8 ||| n.setWidth 8)) ∧
    exec .rsvdCmd8080 s = raised 0x80 ∧
    (∀ n : BitVec 1, exec (.rsvdCmd8283 n) s = raised (0x82#8 ||| n.setWidth 8)) ∧
    (∀ n : BitVec 2, exec (.rsvdCmd8487 n) s = raised (0x84#8 ||| n.setWidth 8)) ∧
    (∀ n : BitVec 2, exec (.rsvdCmd888B n) s = raised (0x88#8 ||| n.setWidth 8)) ∧
    exec .rsvdCmd8C8C s = raised 0x8C ∧
    (∀ n : BitVec 1, exec (.rsvdCmd8E8F n) s = raised (0x8E#8 ||| n.setWidth 8)) ∧
    (∀ n : BitVec 4, exec (.rsvdCmd909F n) s = raised (0x90#8 ||| n.setWidth 8)) ∧
    exec .rsvdCmdA0A0 s = raised 0xA0 ∧
    (∀ n : BitVec 1, exec (.rsvdCmdA2A3 n) s = raised (0xA2#8 ||| n.setWidth 8)) ∧
    exec .rsvdCmdA5A5 s = raised 0xA5 ∧
    exec .rsvdCmdA7A7 s = raised 0xA7 ∧
    exec .rsvdCmdA9A9 s = raised 0xA9 ∧
    (∀ n : BitVec 1, exec (.rsvdCmdAAAB n) s = raised (0xAA#8 ||| n.setWidth 8)) ∧
    (∀ n : BitVec 1, exec (.rsvdCmdACAD n) s = raised (0xAC#8 ||| n.setWidth 8)) ∧
    (∀ n : BitVec 3, exec (.rsvdCmdC0C7 n) s = raised (0xC0#8 ||| n.setWidth 8)) ∧
    exec .rsvdCmdC9C9 s = raised 0xC9 ∧
    (∀ n : BitVec 1, exec (.rsvdCmdCACB n) s = raised (0xCA#8 ||| n.setWidth 8)) ∧
    (∀ n : BitVec 2, exec (.rsvdCmdCCCF n) s = raised (0xCC#8 ||| n.setWidth 8)) ∧
    (∀ n : BitVec 1, exec (.rsvdCmdD0D1 n) s = raised (0xD0#8 ||| n.setWidth 8)) ∧
    exec .rsvdCmdD2D2 s = raised 0xD2 ∧
    exec .rsvdCmdD4D4 s = raised 0xD4 ∧
    (∀ n : BitVec 1, exec (.rsvdCmdD6D7 n) s = raised (0xD6#8 ||| n.setWidth 8)) ∧
    exec .rsvdCmdD8D8 s = raised 0xD8 ∧
    (∀ n : BitVec 2, exec (.rsvdCmdDCDF n) s = raised (0xDC#8 ||| n.setWidth 8)) ∧
    (∀ n : BitVec 5, exec (.rsvdCmdE0FF n) s = raised (0xE0#8 ||| n.setWidth 8))

/-- While a parameter is pending no command byte is an opcode (30_encoding R99, 45_display_register_fsm R223): the byte
clears `pending` and changes at most the register of the pending opcode and, for the addressing mode, the flag BadSelector;
nothing else of DRF and nothing outside it. -/
def Obligations.PendingByteIsNoOpcode : Prop :=
  ∀ (b : Byte) (op : ParamOp) (s : State), s.drf.pending = some op →
    ∃ t, exec (.txnCommand b) s = .next t ∧ t = { s with drf := t.drf } ∧
      t.drf =
        match op with
        | .addrMode =>
          { s.drf with pending := none, addrMode := t.drf.addrMode, fBadSelector := t.drf.fBadSelector }
        | .contrast => { s.drf with pending := none, contrast := t.drf.contrast }
        | .chargePump => { s.drf with pending := none, chargePump := t.drf.chargePump }
        | .muxRatio => { s.drf with pending := none, muxRatio := t.drf.muxRatio }
        | .dispOffset => { s.drf with pending := none, dispOffset := t.drf.dispOffset }
        | .clkDiv => { s.drf with pending := none, clkDiv := t.drf.clkDiv }
        | .precharge => { s.drf with pending := none, precharge := t.drf.precharge }
        | .comPins => { s.drf with pending := none, comPins := t.drf.comPins }
        | .vcomLevel => { s.drf with pending := none, vcomLevel := t.drf.vcomLevel }

/-- What a transaction or a command at DRF leaves unchanged (45_display_register_fsm R220 to R249): all of FBC, the
configuration and what is still to come; every byte of memory for everything but a data transaction, and every byte but
the one under the cursor for a data transaction; the panel's power for all but the two power commands, the cursor for all
but the cursor commands and data, the latches for all but commands. -/
def Obligations.DrfInstructionsFrame : Prop :=
  ∀ (i : Instr) (s t : State),
    ((∃ w, i = decodeTxn w) ∨ ∃ bytes rest, decodeCommand bytes = .ok (i, rest)) → exec i s = .next t →
    t = { s with drf := t.drf } ∧
    (∀ a, Memory.read t.fbc.fb a = Memory.read s.fbc.fb a) ∧
    ((∀ v, i ≠ .txnData v) → ∀ a, Memory.read t.drf.gddram a = Memory.read s.drf.gddram a) ∧
    (∀ v, i = .txnData v → ∀ a, a ≠ (cursorAddr s.drf).toNat →
      Memory.read t.drf.gddram a = Memory.read s.drf.gddram a) ∧
    (∀ v, i = .txnData v →
      t.drf =
        { s.drf with
          gddram := t.drf.gddram, col := t.drf.col, page := t.drf.page, fProto := t.drf.fProto,
          fRamRange := t.drf.fRamRange }) ∧
    ((∀ p, i ≠ .txnCommand p) → (∀ v, i ≠ .txnData v) → s.drf.pending = none →
      (i ≠ .displayOff → i ≠ .displayOn → t.drf.displayOn = s.drf.displayOn) ∧
      ((∀ n, i ≠ .setColLow n) → (∀ n, i ≠ .setColHigh n) → t.drf.col = s.drf.col) ∧
      ((∀ n, i ≠ .setPage n) → t.drf.page = s.drf.page) ∧
      ((∀ v, i ≠ .setAddrMode v) → t.drf.addrMode = s.drf.addrMode) ∧ t.drf.pending = none)

/-! ## Reset -/

/-- What reset leaves, for every draw of the values 10_state R46 leaves unspecified: the framebuffer at FB_RESET_PATTERN,
which is not all zero, the position `IDLE`, the bus not started, default pins, nothing pending, every flag clear with its
information word 0, an empty trace; the rest as drawn. -/
def Obligations.ResetValues : Prop :=
  ∀ d : ResetDraw,
    let s := State.resetWith d
    (∀ a, a < 1024 → Memory.read s.fbc.fb a = Config.fbResetPattern a) ∧
    (∃ a, a < 1024 ∧ Memory.read s.fbc.fb a ≠ 0x00) ∧
    s.fbc.seq = .idle ∧ s.fbc.busStarted = false ∧ s.fbc.pins = .default ∧ s.fbc.trace = [] ∧
    s.fbc.fCoord = ⟨false, 0⟩ ∧ s.fbc.fBadop = ⟨false, 0⟩ ∧ s.fbc.fBusNotStarted = ⟨false, 0⟩ ∧
    s.drf.pending = none ∧
    s.drf.fRsvdCmd = ⟨false, 0⟩ ∧ s.drf.fRsvdCtrl = ⟨false, 0⟩ ∧ s.drf.fProto = ⟨false, 0⟩ ∧
    s.drf.fBadSelector = ⟨false, 0⟩ ∧ s.drf.fColRange = ⟨false, 0⟩ ∧ s.drf.fRamRange = ⟨false, 0⟩ ∧
    s.fbc.modeFlag = d.modeFlag ∧ s.fbc.idx = d.idx ∧ s.drf.col = d.col ∧ s.drf.page = d.page ∧
    s.drf.addrMode = d.addrMode ∧ s.drf.displayOn = d.displayOn ∧ s.drf.clkDiv = d.clkDiv ∧
    s.drf.muxRatio = d.muxRatio ∧ s.drf.dispOffset = d.dispOffset ∧ s.drf.chargePump = d.chargePump ∧
    s.drf.comPins = d.comPins ∧ s.drf.contrast = d.contrast ∧ s.drf.precharge = d.precharge ∧
    s.drf.vcomLevel = d.vcomLevel ∧ s.drf.startLineCmd = d.startLineCmd ∧ s.drf.segRemapCmd = d.segRemapCmd ∧
    s.drf.comScanCmd = d.comScanCmd ∧ s.drf.entireOn = d.entireOn ∧ s.drf.inverse = d.inverse ∧
    s.drf.scrollActive = d.scrollActive ∧
    (Memory.wf d.gddram = true → ∀ a, Memory.read s.drf.gddram a = Memory.read d.gddram a)

/-- A reset at any time, in the middle of an operation too, puts both halves at the values of 10_state R46, whatever the
two ignored arguments are (70_reset_and_hazards R300, R302).  That what the host and the world have still to do outlives
it, that a transaction in flight is dropped and a bench's call ends, is the model's choice (log 7, 12). -/
def Obligations.ResetAtAnyTime : Prop :=
  ∀ (s : State) (width height : Nat) (d : ResetDraw) (rest : List Input), s.inputs = .reset width height d :: rest →
    ∃ t, step s = .next t ∧ t.fbc = (State.resetWith d).fbc ∧ t.drf = (State.resetWith d).drf ∧
      t.stride = s.stride ∧ t.program = s.program ∧ t.calls = [] ∧ t.inputs = rest ∧ t.freeCount = s.freeCount

/-- A block in `IDLE` does nothing until the host presents an operation (70_reset_and_hazards R302): with no word
presented, no bench's call in progress and nothing arriving it is ready and a step changes nothing, so it emits nothing.
The state after reset is such a state, for every draw, its trace empty. -/
def Obligations.IdleBlockIsQuiet : Prop :=
  (∀ s : State, noArrival s = true → s.fbc.seq = .idle → s.program = [] → s.calls = [] →
    step s = .next s ∧ s.opReady = true) ∧
  (∀ d : ResetDraw,
    let s := State.resetWith d
    noArrival s = true ∧ s.fbc.seq = .idle ∧ s.program = [] ∧ s.calls = [] ∧ s.fbc.trace = [])

/-! ## Invariants that every step keeps -/

/-- Every step keeps both memories in their canonical form: addresses 0 to 1023, rising, no superfluous entry
(20_memory R60). -/
def Obligations.StepKeepsMemoryCanonical : Prop :=
  ∀ s t : State, memoryOk s = true → step s = .next t → memoryOk t = true

/-- Every step keeps the sequencer at a position of 10_state R24, with a reposition group only where one is due, the bus
started wherever a transaction is sent, and the pins non-negative (R25, 40_bus_primitives R133); and every step keeps an
event in flight the last of the trace and the one whose turn it is, the sequencer's own or the first of a bench's calls
(20_memory R70; the calls are log 13). -/
def Obligations.StepKeepsSequencer : Prop :=
  ∀ s t : State, step s = .next t →
    (sequencerOk s = true → sequencerOk t = true) ∧ (inFlightOk s = true → inFlightOk t = true)

/-- The mode invariant (10_state R41): in every state the flag names the last mode sent, as long as no bench calls a
primitive behind the sequencer's back (log 6). -/
def Obligations.StepKeepsModeFlag : Prop :=
  ∀ s t : State, noCalls s = true → modeOk s = true → step s = .next t → modeOk t = true

/-- FBC never provokes a DRF fault (70_reset_and_hazards R317) and the two halves stay in step (10_state R41), under
`bus_ok` with no traffic but FBC's own and no bench calling a primitive (log 6); both rules mark this as an inference. -/
def Obligations.StepKeepsDrfInStep : Prop :=
  ∀ s t : State, busOk s = true → noTraffic s = true → noCalls s = true → inStep s = true → step s = .next t →
    inStep t = true

/-- DRF's state is the left fold of reception over the completed events of the trace, under `bus_ok` with no traffic but
FBC's own (20_memory R70); after a reset the fold starts from what the reset leaves. -/
def Obligations.StepKeepsDrfFold : Prop :=
  ∀ (start : Drf) (s t : State), busOk s = true → noTraffic s = true → drfIsFold start s → step s = .next t →
    if noReset s then drfIsFold start t else drfIsFold t.drf t

/-- The state after reset meets every one of these invariants, for every draw. -/
def Obligations.ResetMeetsInvariants : Prop :=
  ∀ d : ResetDraw,
    memoryOk (State.resetWith d) = true ∧ sequencerOk (State.resetWith d) = true ∧
    modeOk (State.resetWith d) = true ∧ inStep (State.resetWith d) = true ∧
    drfIsFold (State.resetWith d).drf (State.resetWith d)

/-! ## Rules about the whole machine -/

/-- FBC never depends on DRF nor on delivery (00_scope R9, 10_state R40, 20_memory R73): two runs that differ only in
DRF's state and in which completed transactions were delivered have the same FBC, the same trace in it, at every step. -/
def Obligations.FbcBlindToDrf : Prop :=
  ∀ (n : Nat) (s t u : State),
    s.fbc = t.fbc → s.stride = t.stride → s.program = t.program → s.calls = t.calls → s.freeCount = t.freeCount →
    s.inputs.map forgetDelivery = t.inputs.map forgetDelivery → steps n s = .next u →
    ∃ v, steps n t = .next v ∧ u.fbc = v.fbc ∧ u.program = v.program ∧ u.calls = v.calls ∧
      u.inputs.map forgetDelivery = v.inputs.map forgetDelivery

/-- A fault flag is cleared only by reset, and once set keeps its information word (60_exceptions R272, R276). -/
def Obligations.FaultFlagsAreSticky : Prop :=
  ∀ s t : State, noReset s = true → step s = .next t →
    (∀ k, (fbcFlag k s.fbc).flag = true → fbcFlag k t.fbc = fbcFlag k s.fbc) ∧
    (∀ k, (drfFlag k s.drf).flag = true → drfFlag k t.drf = drfFlag k s.drf)

/-- Raising a fault sets its flag and latches the information word if the flag was 0, does nothing if it was 1, and
touches no other flag nor anything else (60_exceptions R272, R276).  For a fault of DRF the information word is the whole
transaction (R271; log 15). -/
def Obligations.RaisingLatchesFirst : Prop :=
  (∀ (k : FbcFault) (w : OpWord) (s : State),
    raiseFbc k w s =
      if (fbcFlag k s.fbc).flag then s
      else
        match k with
        | .coordRange => { s with fbc := { s.fbc with fCoord := ⟨true, w⟩ } }
        | .badOp => { s with fbc := { s.fbc with fBadop := ⟨true, w⟩ } }
        | .busNotStarted => { s with fbc := { s.fbc with fBusNotStarted := ⟨true, w⟩ } }) ∧
  (∀ (k : DrfFault) (t : Txn) (d : Drf),
    let info : TxnWord := t.addr ++ t.ctrl ++ t.payload
    raiseDrf k t d =
      if (drfFlag k d).flag then d
      else
        match k with
        | .rsvdCmd => { d with fRsvdCmd := ⟨true, info⟩ }
        | .rsvdCtrl => { d with fRsvdCtrl := ⟨true, info⟩ }
        | .proto => { d with fProto := ⟨true, info⟩ }
        | .badSelector => { d with fBadSelector := ⟨true, info⟩ }
        | .colRange => { d with fColRange := ⟨true, info⟩ }
        | .ramRange => { d with fRamRange := ⟨true, info⟩ })

/-- One word raises at most one fault of FBC and none of DRF, one transaction at most one of DRF (60_exceptions R274). -/
def Obligations.AtMostOneFault : Prop :=
  (∀ (w : OpWord) (s t : State), exec (decodeHost w) s = .next t →
    t.drf = s.drf ∧
    ∀ k k', fbcFlag k t.fbc ≠ fbcFlag k s.fbc → fbcFlag k' t.fbc ≠ fbcFlag k' s.fbc → k = k') ∧
  (∀ (w : TxnWord) (s t : State), exec (decodeTxn w) s = .next t →
    t.fbc = s.fbc ∧
    ∀ k k', drfFlag k t.drf ≠ drfFlag k s.drf → drfFlag k' t.drf ≠ drfFlag k' s.drf → k = k')

/-- The machine never stops on a fault: every state has a next state, whatever flags are set (60_exceptions R275), unless
a bench calls what is no primitive (log 6).  Where the transport never completes, 20_memory R74 and 60_exceptions R283
speak of a sequencer with no step; the model's next state there is the state unchanged (log 5). -/
def Obligations.StepsNeverStop : Prop :=
  ∀ s : State, noNewCalls s = true → ∃ t, step s = .next t

/-- A transaction that never completes leaves the sequencer where it is for ever: busy, no flag set, no operation
accepted, and it is no fault and no end (60_exceptions R283). -/
def Obligations.HungTransactionHolds : Prop :=
  ∀ (n : Nat) (s : State), (seqEvent s.fbc).isSome = true → (∀ x ∈ s.inputs, x = .wait) →
    ∃ t, steps n s = .next t ∧ t.busy = true ∧ t.fbc.seq = s.fbc.seq ∧ t.program = s.program ∧
      t.fbc.fb = s.fbc.fb ∧ t.fbc.modeFlag = s.fbc.modeFlag ∧ t.drf = s.drf ∧
      (∀ k, fbcFlag k t.fbc = fbcFlag k s.fbc)

/-- Without a reset the trace only grows, by at most one event in a step of the sequencer or the host (10_state R24,
R27). -/
def Obligations.TraceOnlyGrows : Prop :=
  ∀ s t : State, noReset s = true → step s = .next t →
    ∃ es, t.fbc.trace = s.fbc.trace ++ es ∧ (noArrival s = true → es.length ≤ 1)

/-- The writers of the mode flag: the completed selector of a mode operation, the completed selector of INIT's vector, and
reset (44_mode_power_clear R202, 41_init R153). -/
def Obligations.ModeFlagWriters : Prop :=
  ∀ s t : State, noReset s = true → step s = .next t → t.fbc.modeFlag ≠ s.fbc.modeFlag →
    noArrival s = true ∧
    ((s.fbc.seq = .mode t.fbc.modeFlag 1 ∧ t.fbc.seq = .idle) ∨
      (s.fbc.seq = .initSend 11 ∧ t.fbc.seq = .initSend 12 ∧ t.fbc.modeFlag = .horizontal))

/-- The writers of the framebuffer: SET_PIXEL, CLEAR_DISPLAY and reset, nothing else (10_state R21, 43_flush R187). -/
def Obligations.FramebufferWriters : Prop :=
  ∀ s t : State, noReset s = true → step s = .next t → t.fbc.fb ≠ s.fbc.fb →
    noArrival s = true ∧ s.fbc.seq = .idle ∧
      ∃ w rest, s.program = w :: rest ∧ (w.extractLsb' 28 4 = 0x2#4 ∨ w.extractLsb' 28 4 = 0x4#4)

/-- The display RAM is written only by a data transaction: without other traffic, only by the data step of a DISPLAY
(10_state R31, 44_mode_power_clear R206, 20_memory R71), or by a bench's sendData in progress (log 6). -/
def Obligations.DisplayRamWriters : Prop :=
  ∀ s t : State, noArrival s = true → s.fbc.seq ≠ .flush .data → (s.fbc.seq = .idle → s.calls = []) →
    step s = .next t → ∀ a, Memory.read t.drf.gddram a = Memory.read s.drf.gddram a

/-- A lost selector puts DRF out of step and FBC cannot know (70_reset_and_hazards R312, marked there as an inference):
SET_PAGE_MODE with its second transaction lost, then SET_POWER_ON, leaves the flag at page mode, DRF's mode and power as
they were, and BadSelector raised by the power byte, its information word that byte's transaction (log 15). -/
def Obligations.LostSelectorSwallowsPowerOn : Prop :=
  ∀ (s : State) (prog : List OpWord) (rest : List Input),
    presents s 0x50000000 (0x70000000 :: prog) → s.fbc.busStarted = true → s.drf.pending = none →
    s.inputs = .done :: .lost :: .done :: rest →
    steps 5 s = .next
      { s with
        program := prog
        inputs := rest
        fbc :=
          { s.fbc with
            modeFlag := .page
            trace := s.fbc.trace ++
              [.txn ⟨0x3C, 0x80, 0x20⟩, .txn ⟨0x3C, 0x80, 0x02⟩, .txn ⟨0x3C, 0x80, 0xAF⟩] }
        drf := { s.drf with fBadSelector := stickyRaise s.drf.fBadSelector 0x3C80AF } }
end

