-- ==== Sys2Proof/Laws/Encoding.lean ====
section
/-! SUPPORT. Laws of the encodings: what the fields of an assembled word are, and that every byte has one row. -/

namespace Sys2Proof

@[simp] theorem hostWord_opc (opc : BitVec 4) (ign : BitVec 28) : (hostWord opc ign).extractLsb' 28 4 = opc :=
  BitVec.extractLsb'_append_eq_left

@[simp] theorem hostWord_ign (opc : BitVec 4) (ign : BitVec 28) : (hostWord opc ign).extractLsb' 0 28 = ign :=
  BitVec.extractLsb'_append_eq_right

/-- A field above the low part of a concatenation is a field of the high part. -/
theorem extract_above {v w : Nat} (hi : BitVec v) (lo : BitVec w) (start len : Nat) (h : w ≤ start) :
    (hi ++ lo).extractLsb' start len = hi.extractLsb' (start - w) len :=
  BitVec.extractLsb'_append_eq_of_le h

/-- A field inside the low part of a concatenation is a field of the low part. -/
theorem extract_below {v w : Nat} (hi : BitVec v) (lo : BitVec w) (start len : Nat) (h : start + len ≤ w) :
    (hi ++ lo).extractLsb' start len = lo.extractLsb' start len :=
  BitVec.extractLsb'_append_eq_of_add_le h

@[simp] theorem setPixelWord_opc (ign : BitVec 4) (x y color : Byte) :
    (setPixelWord ign x y color).extractLsb' 28 4 = 0x2#4 :=
  (extract_above _ color 28 4 (by omega)).trans <| (extract_above _ y 20 4 (by omega)).trans <|
    (extract_above _ x 12 4 (by omega)).trans <| BitVec.extractLsb'_append_eq_left

@[simp] theorem setPixelWord_ign (ign : BitVec 4) (x y color : Byte) :
    (setPixelWord ign x y color).extractLsb' 24 4 = ign :=
  (extract_above _ color 24 4 (by omega)).trans <| (extract_above _ y 16 4 (by omega)).trans <|
    (extract_above _ x 8 4 (by omega)).trans <| BitVec.extractLsb'_append_eq_right

@[simp] theorem setPixelWord_x (ign : BitVec 4) (x y color : Byte) :
    (setPixelWord ign x y color).extractLsb' 16 8 = x :=
  (extract_above _ color 16 8 (by omega)).trans <| (extract_above _ y 8 8 (by omega)).trans <|
    BitVec.extractLsb'_append_eq_right

@[simp] theorem setPixelWord_y (ign : BitVec 4) (x y color : Byte) :
    (setPixelWord ign x y color).extractLsb' 8 8 = y :=
  (extract_above _ color 8 8 (by omega)).trans BitVec.extractLsb'_append_eq_right

@[simp] theorem setPixelWord_color (ign : BitVec 4) (x y color : Byte) :
    (setPixelWord ign x y color).extractLsb' 0 8 = color :=
  BitVec.extractLsb'_append_eq_right

@[simp] theorem initWord_opc (ign : BitVec 12) (sda scl : Byte) : (initWord ign sda scl).extractLsb' 28 4 = 0x1#4 :=
  (extract_above _ scl 28 4 (by omega)).trans <| (extract_above _ sda 20 4 (by omega)).trans
    BitVec.extractLsb'_append_eq_left

@[simp] theorem initWord_ign (ign : BitVec 12) (sda scl : Byte) : (initWord ign sda scl).extractLsb' 16 12 = ign :=
  (extract_above _ scl 16 12 (by omega)).trans <| (extract_above _ sda 8 12 (by omega)).trans
    BitVec.extractLsb'_append_eq_right

@[simp] theorem initWord_sda (ign : BitVec 12) (sda scl : Byte) : (initWord ign sda scl).extractLsb' 8 8 = sda :=
  (extract_above _ scl 8 8 (by omega)).trans BitVec.extractLsb'_append_eq_right

@[simp] theorem initWord_scl (ign : BitVec 12) (sda scl : Byte) : (initWord ign sda scl).extractLsb' 0 8 = scl :=
  BitVec.extractLsb'_append_eq_right

@[simp] theorem txnBits_addr (a : BitVec 7) (c p : Byte) : (txnBits a c p).extractLsb' 16 7 = a :=
  (extract_above _ p 16 7 (by omega)).trans BitVec.extractLsb'_append_eq_left

@[simp] theorem txnBits_ctrl (a : BitVec 7) (c p : Byte) : (txnBits a c p).extractLsb' 8 8 = c :=
  (extract_above _ p 8 8 (by omega)).trans BitVec.extractLsb'_append_eq_right

@[simp] theorem txnBits_payload (a : BitVec 7) (c p : Byte) : (txnBits a c p).extractLsb' 0 8 = p :=
  BitVec.extractLsb'_append_eq_right

@[simp] theorem txnBits_head (a : BitVec 7) (c p : Byte) : (txnBits a c p).extractLsb' 8 15 = a ++ c :=
  BitVec.extractLsb'_append_eq_left

/-- The low nibble of a byte put together from nibbles. -/
@[simp] theorem nibbles_low (h n : BitVec 4) : (h ++ n : Byte).extractLsb' 0 4 = n := BitVec.extractLsb'_append_eq_right

/-- No two rows of the command byte map share a byte. -/
theorem commandRows_disjoint :
    commandRows.Pairwise fun r r' => r.mask &&& r'.mask &&& (r.pattern ^^^ r'.pattern) ≠ 0 := by decide

end Sys2Proof
end

