-- ==== Sys2Proof/Laws/Memory.lean ====
section
/-! SUPPORT. The laws of a byte memory: a read after a write, and that every operation keeps the canonical form. -/

namespace Sys2Proof.Machine

@[simp] theorem Memory.read_nil (a : Nat) : Memory.read [] a = Memory.unlisted := rfl

theorem Memory.wfFrom_cons {lo a : Nat} {v : Byte} {rest : Memory} :
    Memory.wfFrom lo ((a, v) :: rest) = true ↔
      lo ≤ a ∧ a < Config.fbSize ∧ v ≠ Memory.unlisted ∧ Memory.wfFrom (a + 1) rest = true := by
  simp [Memory.wfFrom, and_assoc]

/-- A memory whose addresses start at `lo` starts at every smaller bound too. -/
theorem Memory.wfFrom_mono {lo lo' : Nat} {m : Memory} (h : Memory.wfFrom lo m = true) (hle : lo' ≤ lo) :
    Memory.wfFrom lo' m = true := by
  cases m with
  | nil => rfl
  | cons c rest =>
    obtain ⟨a, v⟩ := c
    rw [Memory.wfFrom_cons] at h ⊢
    exact ⟨by omega, h.2.1, h.2.2.1, h.2.2.2⟩

/-- Below its first address a memory reads as an unlisted address does. -/
theorem Memory.read_below {lo a : Nat} {m : Memory} (h : Memory.wfFrom lo m = true) (ha : a < lo) :
    Memory.read m a = Memory.unlisted := by
  induction m generalizing lo with
  | nil => rfl
  | cons c rest ih =>
    obtain ⟨b, v⟩ := c
    rw [Memory.wfFrom_cons] at h
    rw [Memory.read, if_neg (by omega)]
    exact ih h.2.2.2 (by omega)

theorem Memory.wfFrom_put {lo a : Nat} {v : Byte} {rest : Memory} (h : Memory.wfFrom (a + 1) rest = true)
    (hlo : lo ≤ a) (ha : a < Config.fbSize) : Memory.wfFrom lo (Memory.put a v rest) = true := by
  unfold Memory.put
  split
  · exact Memory.wfFrom_mono h (by omega)
  · exact Memory.wfFrom_cons.mpr ⟨hlo, ha, ‹_›, h⟩

theorem Memory.read_put {a b : Nat} {v : Byte} {rest : Memory} (h : Memory.wfFrom (a + 1) rest = true) :
    Memory.read (Memory.put a v rest) b = if b = a then v else Memory.read rest b := by
  unfold Memory.put
  split
  · next hv =>
    split
    · next hb => subst hb; subst hv; exact Memory.read_below h (by omega)
    · rfl
  · rw [Memory.read]
    by_cases hb : b = a
    · simp [hb]
    · rw [if_neg (fun h => hb h.symm), if_neg hb]

theorem Memory.wfFrom_write {lo a : Nat} {v : Byte} {m : Memory} (h : Memory.wfFrom lo m = true) (hlo : lo ≤ a)
    (ha : a < Config.fbSize) : Memory.wfFrom lo (Memory.write m a v) = true := by
  induction m generalizing lo with
  | nil => exact Memory.wfFrom_put rfl hlo ha
  | cons c rest ih =>
    obtain ⟨b, w⟩ := c
    have hc := h
    rw [Memory.wfFrom_cons] at hc
    unfold Memory.write
    split
    · exact Memory.wfFrom_put (Memory.wfFrom_cons.mpr ⟨by omega, hc.2⟩) hlo ha
    · split
      · next hab => subst hab; exact Memory.wfFrom_put hc.2.2.2 hlo ha
      · exact Memory.wfFrom_cons.mpr ⟨hc.1, hc.2.1, hc.2.2.1, ih hc.2.2.2 (by omega)⟩

/-- A write keeps the canonical form. -/
theorem Memory.wf_write {a : Nat} {v : Byte} {m : Memory} (h : Memory.wf m = true) (ha : a < Config.fbSize) :
    Memory.wf (Memory.write m a v) = true :=
  Memory.wfFrom_write h (Nat.zero_le a) ha

theorem Memory.read_write_from {lo a b : Nat} {v : Byte} {m : Memory} (h : Memory.wfFrom lo m = true) :
    Memory.read (Memory.write m a v) b = if b = a then v else Memory.read m b := by
  induction m generalizing lo with
  | nil => exact Memory.read_put rfl
  | cons c rest ih =>
    obtain ⟨d, w⟩ := c
    have hc := h
    rw [Memory.wfFrom_cons] at hc
    unfold Memory.write
    split
    · exact Memory.read_put (Memory.wfFrom_cons.mpr ⟨by omega, hc.2⟩)
    · split
      · next hlt had =>
        subst had
        rw [Memory.read_put hc.2.2.2]
        split
        · rfl
        · next hb => rw [Memory.read, if_neg (fun e => hb e.symm)]
      · next hlt hne =>
        rw [Memory.read, Memory.read, ih hc.2.2.2]
        by_cases hd : d = b
        · subst hd; rw [if_pos rfl, if_neg (Ne.symm hne), if_pos rfl]
        · simp [hd]

/-- A read after a write: the byte written at its address, every other byte as before. -/
theorem Memory.read_write {a b : Nat} {v : Byte} {m : Memory} (h : Memory.wf m = true) :
    Memory.read (Memory.write m a v) b = if b = a then v else Memory.read m b :=
  Memory.read_write_from h

/-- A write leaves every other address as it was, whatever the form of the list. -/
theorem Memory.read_write_ne {a b : Nat} {v : Byte} {m : Memory} (h : b ≠ a) :
    Memory.read (Memory.write m a v) b = Memory.read m b := by
  have put : ∀ rest : Memory, Memory.read (Memory.put a v rest) b = Memory.read rest b := fun rest => by
    unfold Memory.put
    split
    · rfl
    · rw [Memory.read, if_neg (Ne.symm h)]
  induction m with
  | nil => exact put []
  | cons c rest ih =>
    obtain ⟨d, w⟩ := c
    unfold Memory.write
    split
    · exact put _
    · split
      · next had => rw [put, Memory.read, if_neg (had ▸ Ne.symm h)]
      · rw [Memory.read, Memory.read, ih]

/-- Two canonical memories that read alike are the same list. -/
theorem Memory.ext_read_from {lo : Nat} {m n : Memory} (hm : Memory.wfFrom lo m = true)
    (hn : Memory.wfFrom lo n = true) (h : ∀ a, Memory.read m a = Memory.read n a) : m = n := by
  induction m generalizing lo n with
  | nil =>
    cases n with
    | nil => rfl
    | cons c rest =>
      obtain ⟨a, v⟩ := c
      have := h a
      rw [Memory.wfFrom_cons] at hn
      simp [Memory.read] at this
      exact absurd this.symm hn.2.2.1
  | cons c rest ih =>
    obtain ⟨a, v⟩ := c
    rw [Memory.wfFrom_cons] at hm
    cases n with
    | nil =>
      have := h a
      simp [Memory.read] at this
      exact absurd this hm.2.2.1
    | cons d rest' =>
      obtain ⟨b, w⟩ := d
      rw [Memory.wfFrom_cons] at hn
      have hab : a = b := by
        rcases Nat.lt_trichotomy a b with hlt | heq | hgt
        · have := h a
          rw [Memory.read, if_pos rfl, Memory.read, if_neg (by omega), Memory.read_below hn.2.2.2 (by omega)] at this
          exact absurd this hm.2.2.1
        · exact heq
        · have := h b
          rw [Memory.read, if_neg (by omega), Memory.read_below hm.2.2.2 (by omega), Memory.read, if_pos rfl] at this
          exact absurd this.symm hn.2.2.1
      subst hab
      have hv : v = w := by have := h a; simpa [Memory.read] using this
      subst hv
      have hrest : rest = rest' := by
        refine ih hm.2.2.2 hn.2.2.2 fun x => ?_
        by_cases hx : a = x
        · subst hx
          rw [Memory.read_below hm.2.2.2 (by omega), Memory.read_below hn.2.2.2 (by omega)]
        · have := h x
          simpa [Memory.read, hx] using this
      rw [hrest]

theorem Memory.ext_read {m n : Memory} (hm : Memory.wf m = true) (hn : Memory.wf n = true)
    (h : ∀ a, Memory.read m a = Memory.read n a) : m = n :=
  Memory.ext_read_from hm hn h

/-- The part of `Memory.ofFn` that lists the addresses from `lo` on. -/
theorem Memory.ofFn_range' (f : Nat → Byte) (lo n : Nat) (hn : lo + n ≤ Config.fbSize) :
    let m := (List.range' lo n).filterMap fun a => if f a = Memory.unlisted then none else some (a, f a)
    Memory.wfFrom lo m = true ∧
      ∀ a, Memory.read m a = if lo ≤ a ∧ a < lo + n then f a else Memory.unlisted := by
  induction n generalizing lo with
  | zero => exact ⟨rfl, fun a => by rw [if_neg (by omega)]; rfl⟩
  | succ n ih =>
    obtain ⟨hwf, hread⟩ := ih (lo + 1) (by omega)
    simp only [List.range'_succ, List.filterMap_cons]
    by_cases hz : f lo = Memory.unlisted
    · simp only [hz, if_true]
      refine ⟨Memory.wfFrom_mono hwf (by omega), fun a => ?_⟩
      rw [hread]
      by_cases ha : a = lo
      · subst ha; rw [if_neg (by omega), if_pos (by omega), hz]
      · by_cases hc : lo + 1 ≤ a ∧ a < lo + 1 + n
        · rw [if_pos hc, if_pos (by omega)]
        · rw [if_neg hc, if_neg (by omega)]
    · simp only [hz, if_false]
      refine ⟨Memory.wfFrom_cons.mpr ⟨Nat.le_refl lo, by omega, hz, hwf⟩, fun a => ?_⟩
      rw [Memory.read, hread]
      by_cases ha : lo = a
      · subst ha; rw [if_pos rfl, if_pos (by omega)]
      · rw [if_neg ha]
        by_cases hc : lo + 1 ≤ a ∧ a < lo + 1 + n
        · rw [if_pos hc, if_pos (by omega)]
        · rw [if_neg hc, if_neg (by omega)]

theorem Memory.wf_ofFn (f : Nat → Byte) : Memory.wf (Memory.ofFn f) = true := by
  have := (Memory.ofFn_range' f 0 Config.fbSize (by omega)).1
  simpa [Memory.ofFn, Memory.wf, List.range_eq_range'] using this

theorem Memory.read_ofFn (f : Nat → Byte) {a : Nat} (ha : a < Config.fbSize) :
    Memory.read (Memory.ofFn f) a = f a := by
  have := (Memory.ofFn_range' f 0 Config.fbSize (by omega)).2 a
  rw [if_pos (by omega)] at this
  simpa [Memory.ofFn, List.range_eq_range'] using this

theorem Memory.wf_fill (v : Byte) : Memory.wf (Memory.fill v) = true := by
  unfold Memory.fill
  split
  · rfl
  · exact Memory.wf_ofFn _

theorem Memory.read_fill (v : Byte) {a : Nat} (ha : a < Config.fbSize) : Memory.read (Memory.fill v) a = v := by
  unfold Memory.fill
  split
  · next h => rw [h]; rfl
  · exact Memory.read_ofFn _ ha

theorem Memory.wf_canonical (m : Memory) : Memory.wf (Memory.canonical m) = true := by
  induction m with
  | nil => rfl
  | cons c rest ih =>
    obtain ⟨a, v⟩ := c
    unfold Memory.canonical
    split
    · exact Memory.wf_write ih ‹_›
    · exact ih

end Sys2Proof.Machine
end

