-- ==== Sys2Proof/Laws/State.lean ====
section
/-! SUPPORT. One lemma per field per update of the state, so that no proof unfolds a record update. -/

namespace Sys2Proof.Machine

/-! ## `enter` -/

@[simp] theorem enter_drf (q : Seq) (s : State) : (enter q s).drf = s.drf := rfl
@[simp] theorem enter_stride (q : Seq) (s : State) : (enter q s).stride = s.stride := rfl
@[simp] theorem enter_program (q : Seq) (s : State) : (enter q s).program = s.program := rfl
@[simp] theorem enter_calls (q : Seq) (s : State) : (enter q s).calls = s.calls := rfl
@[simp] theorem enter_inputs (q : Seq) (s : State) : (enter q s).inputs = s.inputs := rfl
@[simp] theorem enter_freeCount (q : Seq) (s : State) : (enter q s).freeCount = s.freeCount := rfl
@[simp] theorem enter_fbc_fb (q : Seq) (s : State) : (enter q s).fbc.fb = s.fbc.fb := rfl
@[simp] theorem enter_fbc_modeFlag (q : Seq) (s : State) : (enter q s).fbc.modeFlag = s.fbc.modeFlag := rfl
@[simp] theorem enter_fbc_idx (q : Seq) (s : State) : (enter q s).fbc.idx = s.fbc.idx := rfl
@[simp] theorem enter_fbc_seq (q : Seq) (s : State) : (enter q s).fbc.seq = q := rfl
@[simp] theorem enter_fbc_busStarted (q : Seq) (s : State) : (enter q s).fbc.busStarted = s.fbc.busStarted := rfl
@[simp] theorem enter_fbc_pins (q : Seq) (s : State) : (enter q s).fbc.pins = s.fbc.pins := rfl
@[simp] theorem enter_fbc_fCoord (q : Seq) (s : State) : (enter q s).fbc.fCoord = s.fbc.fCoord := rfl
@[simp] theorem enter_fbc_fBadop (q : Seq) (s : State) : (enter q s).fbc.fBadop = s.fbc.fBadop := rfl
@[simp] theorem enter_fbc_fBusNotStarted (q : Seq) (s : State) :
    (enter q s).fbc.fBusNotStarted = s.fbc.fBusNotStarted := rfl
@[simp] theorem enter_fbc_trace (q : Seq) (s : State) : (enter q s).fbc.trace = s.fbc.trace := rfl
@[simp] theorem enter_fbc_inFlight (q : Seq) (s : State) : (enter q s).fbc.inFlight = s.fbc.inFlight := rfl

/-! ## `launch` -/

@[simp] theorem launch_drf (e : Event) (s : State) : (launch e s).drf = s.drf := rfl
@[simp] theorem launch_stride (e : Event) (s : State) : (launch e s).stride = s.stride := rfl
@[simp] theorem launch_program (e : Event) (s : State) : (launch e s).program = s.program := rfl
@[simp] theorem launch_calls (e : Event) (s : State) : (launch e s).calls = s.calls := rfl
@[simp] theorem launch_inputs (e : Event) (s : State) : (launch e s).inputs = s.inputs := rfl
@[simp] theorem launch_freeCount (e : Event) (s : State) : (launch e s).freeCount = s.freeCount := rfl
@[simp] theorem launch_fbc_fb (e : Event) (s : State) : (launch e s).fbc.fb = s.fbc.fb := rfl
@[simp] theorem launch_fbc_modeFlag (e : Event) (s : State) : (launch e s).fbc.modeFlag = s.fbc.modeFlag := rfl
@[simp] theorem launch_fbc_idx (e : Event) (s : State) : (launch e s).fbc.idx = s.fbc.idx := rfl
@[simp] theorem launch_fbc_seq (e : Event) (s : State) : (launch e s).fbc.seq = s.fbc.seq := rfl
@[simp] theorem launch_fbc_busStarted (e : Event) (s : State) : (launch e s).fbc.busStarted = s.fbc.busStarted := rfl
@[simp] theorem launch_fbc_pins (e : Event) (s : State) : (launch e s).fbc.pins = s.fbc.pins := rfl
@[simp] theorem launch_fbc_fCoord (e : Event) (s : State) : (launch e s).fbc.fCoord = s.fbc.fCoord := rfl
@[simp] theorem launch_fbc_fBadop (e : Event) (s : State) : (launch e s).fbc.fBadop = s.fbc.fBadop := rfl
@[simp] theorem launch_fbc_fBusNotStarted (e : Event) (s : State) :
    (launch e s).fbc.fBusNotStarted = s.fbc.fBusNotStarted := rfl
@[simp] theorem launch_fbc_trace (e : Event) (s : State) : (launch e s).fbc.trace = s.fbc.trace ++ [e] := rfl
@[simp] theorem launch_fbc_inFlight (e : Event) (s : State) : (launch e s).fbc.inFlight = true := rfl

/-! ## `raiseFbc` -/

@[simp] theorem raiseFbc_drf (k : FbcFault) (w : OpWord) (s : State) :
    (raiseFbc k w s).drf = s.drf := by cases k <;> rfl
@[simp] theorem raiseFbc_stride (k : FbcFault) (w : OpWord) (s : State) :
    (raiseFbc k w s).stride = s.stride := by cases k <;> rfl
@[simp] theorem raiseFbc_program (k : FbcFault) (w : OpWord) (s : State) :
    (raiseFbc k w s).program = s.program := by cases k <;> rfl
@[simp] theorem raiseFbc_calls (k : FbcFault) (w : OpWord) (s : State) :
    (raiseFbc k w s).calls = s.calls := by cases k <;> rfl
@[simp] theorem raiseFbc_inputs (k : FbcFault) (w : OpWord) (s : State) :
    (raiseFbc k w s).inputs = s.inputs := by cases k <;> rfl
@[simp] theorem raiseFbc_freeCount (k : FbcFault) (w : OpWord) (s : State) :
    (raiseFbc k w s).freeCount = s.freeCount := by cases k <;> rfl
@[simp] theorem raiseFbc_fbc_fb (k : FbcFault) (w : OpWord) (s : State) :
    (raiseFbc k w s).fbc.fb = s.fbc.fb := by cases k <;> rfl
@[simp] theorem raiseFbc_fbc_modeFlag (k : FbcFault) (w : OpWord) (s : State) :
    (raiseFbc k w s).fbc.modeFlag = s.fbc.modeFlag := by cases k <;> rfl
@[simp] theorem raiseFbc_fbc_idx (k : FbcFault) (w : OpWord) (s : State) :
    (raiseFbc k w s).fbc.idx = s.fbc.idx := by cases k <;> rfl
@[simp] theorem raiseFbc_fbc_seq (k : FbcFault) (w : OpWord) (s : State) :
    (raiseFbc k w s).fbc.seq = s.fbc.seq := by cases k <;> rfl
@[simp] theorem raiseFbc_fbc_busStarted (k : FbcFault) (w : OpWord) (s : State) :
    (raiseFbc k w s).fbc.busStarted = s.fbc.busStarted := by cases k <;> rfl
@[simp] theorem raiseFbc_fbc_pins (k : FbcFault) (w : OpWord) (s : State) :
    (raiseFbc k w s).fbc.pins = s.fbc.pins := by cases k <;> rfl
@[simp] theorem raiseFbc_fbc_trace (k : FbcFault) (w : OpWord) (s : State) :
    (raiseFbc k w s).fbc.trace = s.fbc.trace := by cases k <;> rfl
@[simp] theorem raiseFbc_fbc_inFlight (k : FbcFault) (w : OpWord) (s : State) :
    (raiseFbc k w s).fbc.inFlight = s.fbc.inFlight := by cases k <;> rfl

/-- Raising a fault changes that fault's flag only. -/
theorem fbcFlag_raiseFbc (j k : FbcFault) (w : OpWord) (s : State) :
    fbcFlag j (raiseFbc k w s).fbc = if j = k then stickyRaise (fbcFlag k s.fbc) w else fbcFlag j s.fbc := by
  cases j <;> cases k <;> rfl

/-! ## `raiseDrf` -/

@[simp] theorem raiseDrf_gddram (k : DrfFault) (t : Txn) (d : Drf) :
    (raiseDrf k t d).gddram = d.gddram := by cases k <;> rfl
@[simp] theorem raiseDrf_col (k : DrfFault) (t : Txn) (d : Drf) : (raiseDrf k t d).col = d.col := by cases k <;> rfl
@[simp] theorem raiseDrf_page (k : DrfFault) (t : Txn) (d : Drf) : (raiseDrf k t d).page = d.page := by cases k <;> rfl
@[simp] theorem raiseDrf_addrMode (k : DrfFault) (t : Txn) (d : Drf) :
    (raiseDrf k t d).addrMode = d.addrMode := by cases k <;> rfl
@[simp] theorem raiseDrf_displayOn (k : DrfFault) (t : Txn) (d : Drf) :
    (raiseDrf k t d).displayOn = d.displayOn := by cases k <;> rfl
@[simp] theorem raiseDrf_pending (k : DrfFault) (t : Txn) (d : Drf) :
    (raiseDrf k t d).pending = d.pending := by cases k <;> rfl
@[simp] theorem raiseDrf_clkDiv (k : DrfFault) (t : Txn) (d : Drf) :
    (raiseDrf k t d).clkDiv = d.clkDiv := by cases k <;> rfl
@[simp] theorem raiseDrf_muxRatio (k : DrfFault) (t : Txn) (d : Drf) :
    (raiseDrf k t d).muxRatio = d.muxRatio := by cases k <;> rfl
@[simp] theorem raiseDrf_dispOffset (k : DrfFault) (t : Txn) (d : Drf) :
    (raiseDrf k t d).dispOffset = d.dispOffset := by cases k <;> rfl
@[simp] theorem raiseDrf_chargePump (k : DrfFault) (t : Txn) (d : Drf) :
    (raiseDrf k t d).chargePump = d.chargePump := by cases k <;> rfl
@[simp] theorem raiseDrf_comPins (k : DrfFault) (t : Txn) (d : Drf) :
    (raiseDrf k t d).comPins = d.comPins := by cases k <;> rfl
@[simp] theorem raiseDrf_contrast (k : DrfFault) (t : Txn) (d : Drf) :
    (raiseDrf k t d).contrast = d.contrast := by cases k <;> rfl
@[simp] theorem raiseDrf_precharge (k : DrfFault) (t : Txn) (d : Drf) :
    (raiseDrf k t d).precharge = d.precharge := by cases k <;> rfl
@[simp] theorem raiseDrf_vcomLevel (k : DrfFault) (t : Txn) (d : Drf) :
    (raiseDrf k t d).vcomLevel = d.vcomLevel := by cases k <;> rfl
@[simp] theorem raiseDrf_startLineCmd (k : DrfFault) (t : Txn) (d : Drf) :
    (raiseDrf k t d).startLineCmd = d.startLineCmd := by cases k <;> rfl
@[simp] theorem raiseDrf_segRemapCmd (k : DrfFault) (t : Txn) (d : Drf) :
    (raiseDrf k t d).segRemapCmd = d.segRemapCmd := by cases k <;> rfl
@[simp] theorem raiseDrf_comScanCmd (k : DrfFault) (t : Txn) (d : Drf) :
    (raiseDrf k t d).comScanCmd = d.comScanCmd := by cases k <;> rfl
@[simp] theorem raiseDrf_entireOn (k : DrfFault) (t : Txn) (d : Drf) :
    (raiseDrf k t d).entireOn = d.entireOn := by cases k <;> rfl
@[simp] theorem raiseDrf_inverse (k : DrfFault) (t : Txn) (d : Drf) :
    (raiseDrf k t d).inverse = d.inverse := by cases k <;> rfl
@[simp] theorem raiseDrf_scrollActive (k : DrfFault) (t : Txn) (d : Drf) :
    (raiseDrf k t d).scrollActive = d.scrollActive := by cases k <;> rfl

/-- Raising a fault changes that fault's flag only. -/
theorem drfFlag_raiseDrf (j k : DrfFault) (t : Txn) (d : Drf) :
    drfFlag j (raiseDrf k t d) = if j = k then stickyRaise (drfFlag k d) t.bits else drfFlag j d := by
  cases j <;> cases k <;> rfl

/-! ## Column and page -/

@[simp] theorem setColLowOp_gddram (n : BitVec 4) (d : Drf) : (setColLowOp n d).gddram = d.gddram := rfl
@[simp] theorem setColLowOp_page (n : BitVec 4) (d : Drf) : (setColLowOp n d).page = d.page := rfl
@[simp] theorem setColLowOp_addrMode (n : BitVec 4) (d : Drf) : (setColLowOp n d).addrMode = d.addrMode := rfl
@[simp] theorem setColLowOp_displayOn (n : BitVec 4) (d : Drf) : (setColLowOp n d).displayOn = d.displayOn := rfl
@[simp] theorem setColLowOp_pending (n : BitVec 4) (d : Drf) : (setColLowOp n d).pending = d.pending := rfl
@[simp] theorem setColLowOp_clkDiv (n : BitVec 4) (d : Drf) : (setColLowOp n d).clkDiv = d.clkDiv := rfl
@[simp] theorem setColLowOp_muxRatio (n : BitVec 4) (d : Drf) : (setColLowOp n d).muxRatio = d.muxRatio := rfl
@[simp] theorem setColLowOp_dispOffset (n : BitVec 4) (d : Drf) : (setColLowOp n d).dispOffset = d.dispOffset := rfl
@[simp] theorem setColLowOp_chargePump (n : BitVec 4) (d : Drf) : (setColLowOp n d).chargePump = d.chargePump := rfl
@[simp] theorem setColLowOp_comPins (n : BitVec 4) (d : Drf) : (setColLowOp n d).comPins = d.comPins := rfl
@[simp] theorem setColLowOp_contrast (n : BitVec 4) (d : Drf) : (setColLowOp n d).contrast = d.contrast := rfl
@[simp] theorem setColLowOp_precharge (n : BitVec 4) (d : Drf) : (setColLowOp n d).precharge = d.precharge := rfl
@[simp] theorem setColLowOp_vcomLevel (n : BitVec 4) (d : Drf) : (setColLowOp n d).vcomLevel = d.vcomLevel := rfl
@[simp] theorem setColLowOp_startLineCmd (n : BitVec 4) (d : Drf) :
    (setColLowOp n d).startLineCmd = d.startLineCmd := rfl
@[simp] theorem setColLowOp_segRemapCmd (n : BitVec 4) (d : Drf) : (setColLowOp n d).segRemapCmd = d.segRemapCmd := rfl
@[simp] theorem setColLowOp_comScanCmd (n : BitVec 4) (d : Drf) : (setColLowOp n d).comScanCmd = d.comScanCmd := rfl
@[simp] theorem setColLowOp_entireOn (n : BitVec 4) (d : Drf) : (setColLowOp n d).entireOn = d.entireOn := rfl
@[simp] theorem setColLowOp_inverse (n : BitVec 4) (d : Drf) : (setColLowOp n d).inverse = d.inverse := rfl
@[simp] theorem setColLowOp_scrollActive (n : BitVec 4) (d : Drf) :
    (setColLowOp n d).scrollActive = d.scrollActive := rfl
@[simp] theorem setColLowOp_fRsvdCmd (n : BitVec 4) (d : Drf) : (setColLowOp n d).fRsvdCmd = d.fRsvdCmd := rfl
@[simp] theorem setColLowOp_fRsvdCtrl (n : BitVec 4) (d : Drf) : (setColLowOp n d).fRsvdCtrl = d.fRsvdCtrl := rfl
@[simp] theorem setColLowOp_fProto (n : BitVec 4) (d : Drf) : (setColLowOp n d).fProto = d.fProto := rfl
@[simp] theorem setColLowOp_fBadSelector (n : BitVec 4) (d : Drf) :
    (setColLowOp n d).fBadSelector = d.fBadSelector := rfl
@[simp] theorem setColLowOp_fColRange (n : BitVec 4) (d : Drf) : (setColLowOp n d).fColRange = d.fColRange := rfl
@[simp] theorem setColLowOp_fRamRange (n : BitVec 4) (d : Drf) : (setColLowOp n d).fRamRange = d.fRamRange := rfl
@[simp] theorem setColHighOp_gddram (n : BitVec 3) (d : Drf) : (setColHighOp n d).gddram = d.gddram := rfl
@[simp] theorem setColHighOp_page (n : BitVec 3) (d : Drf) : (setColHighOp n d).page = d.page := rfl
@[simp] theorem setColHighOp_addrMode (n : BitVec 3) (d : Drf) : (setColHighOp n d).addrMode = d.addrMode := rfl
@[simp] theorem setColHighOp_displayOn (n : BitVec 3) (d : Drf) : (setColHighOp n d).displayOn = d.displayOn := rfl
@[simp] theorem setColHighOp_pending (n : BitVec 3) (d : Drf) : (setColHighOp n d).pending = d.pending := rfl
@[simp] theorem setColHighOp_clkDiv (n : BitVec 3) (d : Drf) : (setColHighOp n d).clkDiv = d.clkDiv := rfl
@[simp] theorem setColHighOp_muxRatio (n : BitVec 3) (d : Drf) : (setColHighOp n d).muxRatio = d.muxRatio := rfl
@[simp] theorem setColHighOp_dispOffset (n : BitVec 3) (d : Drf) : (setColHighOp n d).dispOffset = d.dispOffset := rfl
@[simp] theorem setColHighOp_chargePump (n : BitVec 3) (d : Drf) : (setColHighOp n d).chargePump = d.chargePump := rfl
@[simp] theorem setColHighOp_comPins (n : BitVec 3) (d : Drf) : (setColHighOp n d).comPins = d.comPins := rfl
@[simp] theorem setColHighOp_contrast (n : BitVec 3) (d : Drf) : (setColHighOp n d).contrast = d.contrast := rfl
@[simp] theorem setColHighOp_precharge (n : BitVec 3) (d : Drf) : (setColHighOp n d).precharge = d.precharge := rfl
@[simp] theorem setColHighOp_vcomLevel (n : BitVec 3) (d : Drf) : (setColHighOp n d).vcomLevel = d.vcomLevel := rfl
@[simp] theorem setColHighOp_startLineCmd (n : BitVec 3) (d : Drf) :
    (setColHighOp n d).startLineCmd = d.startLineCmd := rfl
@[simp] theorem setColHighOp_segRemapCmd (n : BitVec 3) (d : Drf) :
    (setColHighOp n d).segRemapCmd = d.segRemapCmd := rfl
@[simp] theorem setColHighOp_comScanCmd (n : BitVec 3) (d : Drf) : (setColHighOp n d).comScanCmd = d.comScanCmd := rfl
@[simp] theorem setColHighOp_entireOn (n : BitVec 3) (d : Drf) : (setColHighOp n d).entireOn = d.entireOn := rfl
@[simp] theorem setColHighOp_inverse (n : BitVec 3) (d : Drf) : (setColHighOp n d).inverse = d.inverse := rfl
@[simp] theorem setColHighOp_scrollActive (n : BitVec 3) (d : Drf) :
    (setColHighOp n d).scrollActive = d.scrollActive := rfl
@[simp] theorem setColHighOp_fRsvdCmd (n : BitVec 3) (d : Drf) : (setColHighOp n d).fRsvdCmd = d.fRsvdCmd := rfl
@[simp] theorem setColHighOp_fRsvdCtrl (n : BitVec 3) (d : Drf) : (setColHighOp n d).fRsvdCtrl = d.fRsvdCtrl := rfl
@[simp] theorem setColHighOp_fProto (n : BitVec 3) (d : Drf) : (setColHighOp n d).fProto = d.fProto := rfl
@[simp] theorem setColHighOp_fBadSelector (n : BitVec 3) (d : Drf) :
    (setColHighOp n d).fBadSelector = d.fBadSelector := rfl
@[simp] theorem setColHighOp_fColRange (n : BitVec 3) (d : Drf) : (setColHighOp n d).fColRange = d.fColRange := rfl
@[simp] theorem setColHighOp_fRamRange (n : BitVec 3) (d : Drf) : (setColHighOp n d).fRamRange = d.fRamRange := rfl
@[simp] theorem setPageOp_gddram (n : BitVec 4) (d : Drf) : (setPageOp n d).gddram = d.gddram := rfl
@[simp] theorem setPageOp_col (n : BitVec 4) (d : Drf) : (setPageOp n d).col = d.col := rfl
@[simp] theorem setPageOp_addrMode (n : BitVec 4) (d : Drf) : (setPageOp n d).addrMode = d.addrMode := rfl
@[simp] theorem setPageOp_displayOn (n : BitVec 4) (d : Drf) : (setPageOp n d).displayOn = d.displayOn := rfl
@[simp] theorem setPageOp_pending (n : BitVec 4) (d : Drf) : (setPageOp n d).pending = d.pending := rfl
@[simp] theorem setPageOp_clkDiv (n : BitVec 4) (d : Drf) : (setPageOp n d).clkDiv = d.clkDiv := rfl
@[simp] theorem setPageOp_muxRatio (n : BitVec 4) (d : Drf) : (setPageOp n d).muxRatio = d.muxRatio := rfl
@[simp] theorem setPageOp_dispOffset (n : BitVec 4) (d : Drf) : (setPageOp n d).dispOffset = d.dispOffset := rfl
@[simp] theorem setPageOp_chargePump (n : BitVec 4) (d : Drf) : (setPageOp n d).chargePump = d.chargePump := rfl
@[simp] theorem setPageOp_comPins (n : BitVec 4) (d : Drf) : (setPageOp n d).comPins = d.comPins := rfl
@[simp] theorem setPageOp_contrast (n : BitVec 4) (d : Drf) : (setPageOp n d).contrast = d.contrast := rfl
@[simp] theorem setPageOp_precharge (n : BitVec 4) (d : Drf) : (setPageOp n d).precharge = d.precharge := rfl
@[simp] theorem setPageOp_vcomLevel (n : BitVec 4) (d : Drf) : (setPageOp n d).vcomLevel = d.vcomLevel := rfl
@[simp] theorem setPageOp_startLineCmd (n : BitVec 4) (d : Drf) : (setPageOp n d).startLineCmd = d.startLineCmd := rfl
@[simp] theorem setPageOp_segRemapCmd (n : BitVec 4) (d : Drf) : (setPageOp n d).segRemapCmd = d.segRemapCmd := rfl
@[simp] theorem setPageOp_comScanCmd (n : BitVec 4) (d : Drf) : (setPageOp n d).comScanCmd = d.comScanCmd := rfl
@[simp] theorem setPageOp_entireOn (n : BitVec 4) (d : Drf) : (setPageOp n d).entireOn = d.entireOn := rfl
@[simp] theorem setPageOp_inverse (n : BitVec 4) (d : Drf) : (setPageOp n d).inverse = d.inverse := rfl
@[simp] theorem setPageOp_scrollActive (n : BitVec 4) (d : Drf) : (setPageOp n d).scrollActive = d.scrollActive := rfl
@[simp] theorem setPageOp_fRsvdCmd (n : BitVec 4) (d : Drf) : (setPageOp n d).fRsvdCmd = d.fRsvdCmd := rfl
@[simp] theorem setPageOp_fRsvdCtrl (n : BitVec 4) (d : Drf) : (setPageOp n d).fRsvdCtrl = d.fRsvdCtrl := rfl
@[simp] theorem setPageOp_fProto (n : BitVec 4) (d : Drf) : (setPageOp n d).fProto = d.fProto := rfl
@[simp] theorem setPageOp_fBadSelector (n : BitVec 4) (d : Drf) : (setPageOp n d).fBadSelector = d.fBadSelector := rfl
@[simp] theorem setPageOp_fColRange (n : BitVec 4) (d : Drf) : (setPageOp n d).fColRange = d.fColRange := rfl
@[simp] theorem setPageOp_fRamRange (n : BitVec 4) (d : Drf) : (setPageOp n d).fRamRange = d.fRamRange := rfl

/-! ## `construct` -/

@[simp] theorem construct_stride (w h : Nat) (r : ResetDraw) (s : State) : (construct w h r s).stride = s.stride := rfl
@[simp] theorem construct_program (w h : Nat) (r : ResetDraw) (s : State) :
    (construct w h r s).program = s.program := rfl
@[simp] theorem construct_inputs (w h : Nat) (r : ResetDraw) (s : State) : (construct w h r s).inputs = s.inputs := rfl
@[simp] theorem construct_freeCount (w h : Nat) (r : ResetDraw) (s : State) :
    (construct w h r s).freeCount = s.freeCount := rfl
@[simp] theorem construct_calls (w h : Nat) (r : ResetDraw) (s : State) : (construct w h r s).calls = [] := rfl
@[simp] theorem construct_fbc (w h : Nat) (r : ResetDraw) (s : State) :
    (construct w h r s).fbc = (State.resetWith r).fbc := rfl
@[simp] theorem construct_drf (w h : Nat) (r : ResetDraw) (s : State) :
    (construct w h r s).drf = (State.resetWith r).drf := rfl

/-! ## `seqPrepare` -/

/-- What the step writes before it emits: the pins and the bus flag only. -/
theorem seqPrepare_shape (f : Fbc) : ∃ p b, seqPrepare f = { f with pins := p, busStarted := b } := by
  obtain ⟨fb, modeFlag, idx, seq, busStarted, pins, fCoord, fBadop, fBusNotStarted, trace, inFlight⟩ := f
  cases seq with
  | initCfg sda scl =>
    by_cases hp : pinsSupplied sda scl = true
    · exact ⟨.custom sda scl, busStarted, by simp [seqPrepare, hp]⟩
    · exact ⟨pins, busStarted, by simp [seqPrepare, hp]⟩
  | initStart => exact ⟨pins, true, rfl⟩
  | _ => exact ⟨pins, busStarted, rfl⟩

@[simp] theorem seqPrepare_fb (f : Fbc) :
    (seqPrepare f).fb = f.fb := by
  obtain ⟨_, _, h⟩ := seqPrepare_shape f; rw [h]
@[simp] theorem seqPrepare_modeFlag (f : Fbc) :
    (seqPrepare f).modeFlag = f.modeFlag := by
  obtain ⟨_, _, h⟩ := seqPrepare_shape f; rw [h]
@[simp] theorem seqPrepare_idx (f : Fbc) :
    (seqPrepare f).idx = f.idx := by
  obtain ⟨_, _, h⟩ := seqPrepare_shape f; rw [h]
@[simp] theorem seqPrepare_seq (f : Fbc) :
    (seqPrepare f).seq = f.seq := by
  obtain ⟨_, _, h⟩ := seqPrepare_shape f; rw [h]
@[simp] theorem seqPrepare_fCoord (f : Fbc) :
    (seqPrepare f).fCoord = f.fCoord := by
  obtain ⟨_, _, h⟩ := seqPrepare_shape f; rw [h]
@[simp] theorem seqPrepare_fBadop (f : Fbc) :
    (seqPrepare f).fBadop = f.fBadop := by
  obtain ⟨_, _, h⟩ := seqPrepare_shape f; rw [h]
@[simp] theorem seqPrepare_fBusNotStarted (f : Fbc) :
    (seqPrepare f).fBusNotStarted = f.fBusNotStarted := by
  obtain ⟨_, _, h⟩ := seqPrepare_shape f; rw [h]
@[simp] theorem seqPrepare_trace (f : Fbc) :
    (seqPrepare f).trace = f.trace := by
  obtain ⟨_, _, h⟩ := seqPrepare_shape f; rw [h]
@[simp] theorem seqPrepare_inFlight (f : Fbc) :
    (seqPrepare f).inFlight = f.inFlight := by
  obtain ⟨_, _, h⟩ := seqPrepare_shape f; rw [h]

end Sys2Proof.Machine
end

