-- ==== Sys2Proof/Laws/Ops.lean ====
section
/-! SUPPORT. What each shared operation can do, said once. -/

namespace Sys2Proof.Machine

/-! ## Sticky flags -/

theorem stickyRaise_flag {n : Nat} (f : Sticky n) (i : BitVec n) : (stickyRaise f i).flag = true := by
  unfold stickyRaise; split <;> simp_all

/-- A flag that is set keeps its information word. -/
theorem stickyRaise_set {n : Nat} {f : Sticky n} (h : f.flag = true) (i : BitVec n) : stickyRaise f i = f := by
  simp [stickyRaise, h]

/-- A flag that is clear latches the information word. -/
theorem stickyRaise_clear {n : Nat} {f : Sticky n} (h : f.flag = false) (i : BitVec n) :
    stickyRaise f i = ⟨true, i⟩ := by
  simp [stickyRaise, h]

/-! ## The host port -/

theorem accept_idle {s t : State} (h : s.fbc.seq = .idle) : accept s t = .next t := by simp [accept, h]

theorem accept_busy {s t : State} (h : s.fbc.seq ≠ .idle) : accept s t = .next s := by simp [accept, h]

/-- A host word leaves one of two states: the accepting one, or the state as it was. -/
theorem accept_cases {s t u : State} (h : accept s t = .next u) :
    (s.fbc.seq = .idle ∧ u = t) ∨ (s.fbc.seq ≠ .idle ∧ u = s) := by
  by_cases hi : s.fbc.seq = .idle
  · rw [accept_idle hi] at h; exact .inl ⟨hi, by injection h with h; exact h.symm⟩
  · rw [accept_busy hi] at h; exact .inr ⟨hi, by injection h with h; exact h.symm⟩

theorem acceptBus_started {w : OpWord} {s t : State} (h : s.fbc.seq = .idle) (hb : s.fbc.busStarted = true) :
    acceptBus w s t = .next t := by simp [acceptBus, accept, h, hb]

theorem acceptBus_notStarted {w : OpWord} {s t : State} (h : s.fbc.seq = .idle) (hb : s.fbc.busStarted = false) :
    acceptBus w s t = .next (raiseFbc .busNotStarted w s) := by simp [acceptBus, accept, h, hb]

/-! ## DRF -/

theorem drfNext_eq (f : Drf → Drf) (s : State) : drfNext f s = .next { s with drf := f s.drf } := rfl

theorem commandByte_none {b : Byte} {f : Drf → Drf} {d : Drf} (h : d.pending = none) : commandByte b f d = f d := by
  simp [commandByte, h]

theorem commandByte_some {b : Byte} {f : Drf → Drf} {d : Drf} {op : ParamOp} (h : d.pending = some op) :
    commandByte b f d = parameterRule op b { d with pending := none } := by
  simp [commandByte, h]

theorem commandPair_none {op : ParamOp} {v : Byte} {f : Drf → Drf} {d : Drf} (h : d.pending = none) :
    commandPair op v f d = f d := by
  simp [commandPair, h]

theorem commandPair_some {op p : ParamOp} {v : Byte} {f : Drf → Drf} {d : Drf} (h : d.pending = some p) :
    commandPair op v f d = receiveOpcode v (parameterRule p (paramOpByte op) { d with pending := none }) := by
  simp [commandPair, h]

/-- The selector of the addressing mode changes `addrMode`, or raises BadSelector. -/
theorem setAddrModeOp_cases (v : Byte) (d : Drf) :
    (v = 0x00 ∧ setAddrModeOp v d = { d with addrMode := .horizontal }) ∨
    (v = 0x02 ∧ setAddrModeOp v d = { d with addrMode := .page }) ∨
    (v ≠ 0x00 ∧ v ≠ 0x02 ∧ setAddrModeOp v d = raiseDrf .badSelector (commandTxn v) d) := by
  by_cases h0 : v = 0x00#8
  · exact .inl ⟨h0, by simp [setAddrModeOp, modeSelector, h0]⟩
  · by_cases h2 : v = 0x02#8
    · exact .inr (.inl ⟨h2, by simp [setAddrModeOp, modeSelector, h2]⟩)
    · exact .inr (.inr ⟨h0, h2, by simp [setAddrModeOp, modeSelector, h0, h2]⟩)

/-- A parameter touches neither the display RAM nor the cursor nor the panel's power nor `pending`. -/
theorem parameterRule_frame (op : ParamOp) (v : Byte) (d : Drf) :
    (parameterRule op v d).gddram = d.gddram ∧ (parameterRule op v d).col = d.col ∧
      (parameterRule op v d).page = d.page ∧ (parameterRule op v d).displayOn = d.displayOn ∧
      (parameterRule op v d).pending = d.pending := by
  cases op
  case addrMode =>
    rcases setAddrModeOp_cases v d with ⟨_, h⟩ | ⟨_, h⟩ | ⟨_, _, h⟩ <;> simp [parameterRule, h]
  all_goals exact ⟨rfl, rfl, rfl, rfl, rfl⟩

/-- No command byte writes the display RAM. -/
theorem receiveOpcode_gddram (b : Byte) (d : Drf) : (receiveOpcode b d).gddram = d.gddram := by
  simp only [receiveOpcode, apply_ite Drf.gddram, setColLowOp_gddram, setColHighOp_gddram, setPageOp_gddram,
    raiseDrf_gddram]
  cases paramOpOf b <;> simp

theorem receiveCommand_gddram (b : Byte) (d : Drf) : (receiveCommand b d).gddram = d.gddram := by
  cases h : d.pending with
  | none => rw [receiveCommand, commandByte_none h, receiveOpcode_gddram]
  | some op => rw [receiveCommand, commandByte_some h, (parameterRule_frame op b _).1]

/-- The three things a data byte can do (R245, R249). -/
theorem receiveData_cases (v : Byte) (d : Drf) :
    (d.pending ≠ none ∧ receiveData v d = raiseDrf .proto (dataTxn v) d) ∨
    (d.pending = none ∧ 7 < d.page.toNat ∧ receiveData v d = raiseDrf .ramRange (dataTxn v) d) ∨
    (d.pending = none ∧ d.page.toNat ≤ 7 ∧
      receiveData v d = advanceCursor { d with gddram := Memory.write d.gddram (cursorAddr d).toNat v }) := by
  cases h : d.pending with
  | some op => exact .inl ⟨by simp, by simp [receiveData, h]⟩
  | none =>
    by_cases hp : 7 < d.page.toNat
    · exact .inr (.inl ⟨rfl, hp, by simp [receiveData, h, hp]⟩)
    · exact .inr (.inr ⟨rfl, by omega, by simp [receiveData, h, hp]⟩)

@[simp] theorem advanceCursor_gddram (d : Drf) : (advanceCursor d).gddram = d.gddram := by
  unfold advanceCursor; split
  · rfl
  · split <;> rfl

/-- The address under the cursor as a number. -/
theorem cursorAddr_toNat {d : Drf} (h : d.page.toNat ≤ 7) :
    (cursorAddr d).toNat = d.col.toNat + d.page.toNat * 128 := by
  have hc := d.col.isLt
  simp [cursorAddr, BitVec.toNat_add, BitVec.toNat_mul]
  omega

/-- Reception keeps the display RAM canonical. -/
theorem receive_wf {t : Txn} {d : Drf} (h : Memory.wf d.gddram = true) : Memory.wf (receive t d).gddram = true := by
  unfold receive
  split
  · exact h
  · split
    · rw [receiveCommand_gddram]; exact h
    · split
      · rcases receiveData_cases t.payload d with ⟨_, e⟩ | ⟨_, _, e⟩ | ⟨_, _, e⟩
        · rw [e, raiseDrf_gddram]; exact h
        · rw [e, raiseDrf_gddram]; exact h
        · rw [e, advanceCursor_gddram]
          exact Memory.wf_write h (cursorAddr d).isLt
      · rw [raiseDrf_gddram]; exact h

theorem deliver_wf {e : Event} {d : Drf} (h : Memory.wf d.gddram = true) : Memory.wf (deliver e d).gddram = true := by
  cases e with
  | txn t => exact receive_wf h
  | busConfig _ _ => exact h
  | busStart => exact h

/-! ## The transport -/

/-- What the transport's answer can be (20_memory R73, R74). -/
theorem settle_cases (e : Event) (s : State) :
    (∃ rest, s.inputs = .done :: rest ∧
      settle e s = ({ s with inputs := rest, drf := deliver e s.drf, fbc := { s.fbc with inFlight := false } }, true)) ∨
    (∃ rest, s.inputs = .lost :: rest ∧
      settle e s = ({ s with inputs := rest, fbc := { s.fbc with inFlight := false } }, true)) ∨
    (∃ rest, s.inputs = .wait :: rest ∧ settle e s = ({ s with inputs := rest }, false)) ∨
    settle e s = (s, false) := by
  unfold settle
  split
  · exact .inl ⟨_, ‹_›, rfl⟩
  · exact .inr (.inl ⟨_, ‹_›, rfl⟩)
  · exact .inr (.inr (.inl ⟨_, ‹_›, rfl⟩))
  · exact .inr (.inr (.inr rfl))

/-- Settling changes of FBC only whether an event is in flight. -/
theorem settle_fbc (e : Event) (s : State) :
    (settle e s).1.fbc = { s.fbc with inFlight := if (settle e s).2 then false else s.fbc.inFlight } := by
  rcases settle_cases e s with ⟨_, _, h⟩ | ⟨_, _, h⟩ | ⟨_, _, h⟩ | h <;> simp [h]

/-- What is in flight is held, not emitted again. -/
theorem transact_held {e : Event} {s : State} (h : s.fbc.inFlight = true) : transact e s = settle e s := by
  simp [transact, h]

/-- An event that is not in flight is emitted, then held. -/
theorem transact_free {e : Event} {s : State} (h : s.fbc.inFlight = false) :
    transact e s = settle e (launch e s) := by
  simp [transact, h]

/-- An emission changes of FBC only the trace and whether an event is in flight. -/
theorem transact_fbc (e : Event) (s : State) :
    (transact e s).1.fbc =
      { s.fbc with
        trace := if s.fbc.inFlight then s.fbc.trace else s.fbc.trace ++ [e]
        inFlight := !(transact e s).2 } := by
  cases h : s.fbc.inFlight with
  | true => rw [transact_held h, settle_fbc]; cases (settle e s).2 <;> simp [h]
  | false => rw [transact_free h, settle_fbc]; cases (settle e (launch e s)).2 <;> simp [launch]

/-- Of the rest of the state an emission changes only DRF and the answers. -/
theorem transact_frame (e : Event) (s : State) :
    (transact e s).1.stride = s.stride ∧ (transact e s).1.program = s.program ∧ (transact e s).1.calls = s.calls ∧
      (transact e s).1.freeCount = s.freeCount := by
  unfold transact
  split
  · rcases settle_cases e s with ⟨_, _, h⟩ | ⟨_, _, h⟩ | ⟨_, _, h⟩ | h <;> simp [h]
  · rcases settle_cases e (launch e s) with ⟨_, _, h⟩ | ⟨_, _, h⟩ | ⟨_, _, h⟩ | h <;> simp [h]

/-- An emission with nothing in flight that the transport completes and delivers. -/
theorem transact_done {e : Event} {s : State} {rest : List Input} (hf : s.fbc.inFlight = false)
    (hi : s.inputs = .done :: rest) :
    transact e s =
      ({ s with
          inputs := rest
          drf := deliver e s.drf
          fbc := { s.fbc with trace := s.fbc.trace ++ [e], inFlight := false } }, true) := by
  simp [transact, hf, settle, launch, hi]

theorem settle_wf {e : Event} {s : State} (h : Memory.wf s.drf.gddram = true) :
    Memory.wf (settle e s).1.drf.gddram = true := by
  rcases settle_cases e s with ⟨_, _, he⟩ | ⟨_, _, he⟩ | ⟨_, _, he⟩ | he
  · rw [he]; exact deliver_wf h
  all_goals (rw [he]; exact h)

theorem transact_wf {e : Event} {s : State} (h : Memory.wf s.drf.gddram = true) :
    Memory.wf (transact e s).1.drf.gddram = true := by
  unfold transact
  split
  · exact settle_wf h
  · exact settle_wf h

/-! ## A bench's calls -/

/-- What a step of the calls can do: nothing, hold the first event, or complete it and go on. -/
theorem callStep_cases (s : State) :
    (s.calls = [] ∧ callStep s = (s, false)) ∨
    (∃ e rest, s.calls = e :: rest ∧ (transact e s).2 = false ∧ callStep s = ((transact e s).1, false)) ∨
    (∃ e rest, s.calls = e :: rest ∧ (transact e s).2 = true ∧
      callStep s = ({ (transact e s).1 with calls := rest }, true)) := by
  cases hc : s.calls with
  | nil => exact .inl ⟨rfl, by simp [callStep, hc]⟩
  | cons e rest =>
    cases h2 : (transact e s).2 with
    | false => exact .inr (.inl ⟨e, rest, rfl, h2, by simp [callStep, hc, h2]⟩)
    | true => exact .inr (.inr ⟨e, rest, rfl, h2, by simp [callStep, hc, h2]⟩)

/-- What a step of the calls keeps, any number of them keeps. -/
theorem callSteps_induct {P : State → Prop} (h : ∀ s, P s → P (callStep s).1) :
    ∀ (n : Nat) (s : State), P s → P (callSteps n s)
  | 0, _, hs => hs
  | n + 1, s, hs => by
    unfold callSteps
    split
    · exact callSteps_induct h n _ (h s hs)
    · exact h s hs

/-- A step of the calls changes of FBC only the trace and whether an event is in flight. -/
theorem callStep_fbc (s : State) :
    ∃ tr fl, (callStep s).1.fbc = { s.fbc with trace := tr, inFlight := fl } := by
  rcases callStep_cases s with ⟨_, h⟩ | ⟨e, _, _, _, h⟩ | ⟨e, _, _, _, h⟩
  · rw [h]; exact ⟨s.fbc.trace, s.fbc.inFlight, rfl⟩
  · rw [h, transact_fbc]; exact ⟨_, _, rfl⟩
  · rw [h]; exact ⟨_, _, transact_fbc e s⟩

theorem callStep_wf {s : State} (h : Memory.wf s.drf.gddram = true) :
    Memory.wf (callStep s).1.drf.gddram = true := by
  rcases callStep_cases s with ⟨_, e⟩ | ⟨_, _, _, _, e⟩ | ⟨_, _, _, _, e⟩
  · rw [e]; exact h
  · rw [e]; exact transact_wf h
  · rw [e]; exact transact_wf h

/-- A call met while the sequencer is busy waits. -/
theorem callPrimitive_busy {es : List Event} {s : State} (h : s.fbc.seq ≠ .idle) :
    callPrimitive es s = .next { s with calls := s.calls ++ es } := by
  simp [callPrimitive, h]

/-- A call met in `IDLE` goes on at once, after those before it. -/
theorem callPrimitive_idle {es : List Event} {s : State} (h : s.fbc.seq = .idle) :
    callPrimitive es s = .next (callSteps (s.calls ++ es).length { s with calls := s.calls ++ es }) := by
  simp [callPrimitive, h]

theorem callPrimitive_wf {es : List Event} {s t : State} (h : Memory.wf s.drf.gddram = true)
    (ht : callPrimitive es s = .next t) : Memory.wf t.drf.gddram = true := by
  by_cases hi : s.fbc.seq = .idle
  · rw [callPrimitive_idle hi] at ht
    injection ht with ht
    rw [← ht]
    exact callSteps_induct (P := fun s => Memory.wf s.drf.gddram = true) (fun _ => callStep_wf) _ _ h
  · rw [callPrimitive_busy hi] at ht
    injection ht with ht
    rw [← ht]
    exact h

/-! ## The sequencer -/

/-- What the step writes before it emits does not change what it emits. -/
theorem seqEvent_prepare (f : Fbc) : seqEvent (seqPrepare f) = seqEvent f := by
  unfold seqEvent
  simp only [seqPrepare_seq, seqPrepare_fb, seqPrepare_idx]

/-- What the sequencer does in one step: go on without an event, hold, or go on after the event. -/
theorem sequencerStep_cases (s : State) :
    (seqEvent s.fbc = none ∧ sequencerStep s = seqAdvance { s with fbc := seqPrepare s.fbc }) ∨
    (∃ e, seqEvent s.fbc = some e ∧ (transact e { s with fbc := seqPrepare s.fbc }).2 = false ∧
      sequencerStep s = (transact e { s with fbc := seqPrepare s.fbc }).1) ∨
    (∃ e, seqEvent s.fbc = some e ∧ (transact e { s with fbc := seqPrepare s.fbc }).2 = true ∧
      sequencerStep s = seqAdvance (transact e { s with fbc := seqPrepare s.fbc }).1) := by
  cases h : seqEvent s.fbc with
  | none => exact .inl ⟨rfl, by simp [sequencerStep, seqEvent_prepare, h]⟩
  | some e =>
    cases h2 : (transact e { s with fbc := seqPrepare s.fbc }).2 with
    | false => exact .inr (.inl ⟨e, rfl, h2, by simp [sequencerStep, seqEvent_prepare, h, h2]⟩)
    | true => exact .inr (.inr ⟨e, rfl, h2, by simp [sequencerStep, seqEvent_prepare, h, h2]⟩)

/-! ## The framebuffer -/

theorem pixelIndex_toNat {x y : Byte} (hx : x.toNat < 128) (hy : y.toNat < 64) :
    (pixelIndex x y).toNat = x.toNat + y.toNat / 8 * 128 := by
  simp [pixelIndex, BitVec.toNat_add, BitVec.toNat_mul, BitVec.toNat_ushiftRight, Nat.shiftRight_eq_div_pow]
  omega

@[simp] theorem clearedMemory_eq : clearedMemory = [] := by simp [clearedMemory, Memory.fill, Memory.unlisted]

/-- FB_RESET_PATTERN is not all zero (10_state R21). -/
theorem resetPattern_marked : Config.fbResetPattern Config.fbPatternMark.val ≠ 0 := by
  have hm := Config.fbPatternMarkByte.isLt
  unfold Config.fbResetPattern
  split
  · intro h
    have := congrArg BitVec.toNat h
    simp at this
    omega
  · next h => exact fun hz => h ⟨rfl, hz⟩

theorem resetFramebuffer_wf : Memory.wf resetFramebuffer = true := by unfold resetFramebuffer; exact Memory.wf_ofFn _

end Sys2Proof.Machine
end

