-- ==== Sys2Proof/Laws/PerInstr.lean ====
section
/-! SUPPORT. One statement per instruction: the encoder puts the row's fixed bits where opcode_table.json has them. -/

namespace Sys2Proof.Laws.RowPattern

/-- The number of bits of an encoding's first unit: a word, a transaction, three transactions, a command byte. -/
def unitBits : Words → Nat
  | .host _ => 32
  | .send _ => 23
  | .cursor _ => 69
  | .bus _ => 23
  | .command _ => 8

/-- `len` bits from bit `lo` on of an encoding's first unit. -/
def field (lo len : Nat) : Words → Nat
  | .host w => (w.extractLsb' lo len).toNat
  | .send t => (t.extractLsb' lo len).toNat
  | .cursor t => (t.extractLsb' lo len).toNat
  | .bus t => (t.extractLsb' lo len).toNat
  | .command bytes => ((bytes.headD 0).extractLsb' lo len).toNat

/-- A table row's width and its fixed field: the lowest bit, the number of bits, the value (opcode_table.json, "fixed";
for the seven transaction rows, the fixed high bits of "encoding"). -/
def row : Instr → Nat × Nat × Nat × Nat
  | .init _ _ _ => (32, 28, 4, 0x1)
  | .setPixel _ _ _ _ => (32, 28, 4, 0x2)
  | .display _ => (32, 28, 4, 0x3)
  | .clearDisplay _ => (32, 28, 4, 0x4)
  | .setPageMode _ => (32, 28, 4, 0x5)
  | .setHorizontalMode _ => (32, 28, 4, 0x6)
  | .setPowerOn _ => (32, 28, 4, 0x7)
  | .setPowerOff _ => (32, 28, 4, 0x8)
  | .hostReserved0 _ => (32, 28, 4, 0x0)
  | .hostReserved9 _ => (32, 28, 4, 0x9)
  | .hostReservedA _ => (32, 28, 4, 0xA)
  | .hostReservedB _ => (32, 28, 4, 0xB)
  | .hostReservedC _ => (32, 28, 4, 0xC)
  | .hostReservedD _ => (32, 28, 4, 0xD)
  | .hostReservedE _ => (32, 28, 4, 0xE)
  | .hostReservedF _ => (32, 28, 4, 0xF)
  | .sendCommand _ => (23, 8, 15, 0x3C80)
  | .sendData _ => (23, 8, 15, 0x3C40)
  | .setCursorXY _ _ => (69, 54, 15, 0x3C80)
  | .txnCommand _ => (23, 8, 15, 0x3C80)
  | .txnData _ => (23, 8, 15, 0x3C40)
  | .txnReservedCtrl _ _ => (23, 16, 7, 0x3C)
  | .txnOtherAddress _ _ _ => (23, 0, 0, 0x0)
  | .setColLow _ => (8, 4, 4, 0x0)
  | .setColHigh _ => (8, 3, 5, 0x2)
  | .setColHighOutOfRange _ => (8, 3, 5, 0x3)
  | .setAddrMode _ => (8, 0, 8, 0x20)
  | .stopScroll => (8, 0, 8, 0x2E)
  | .startLine => (8, 0, 8, 0x40)
  | .setContrast _ => (8, 0, 8, 0x81)
  | .chargePump _ => (8, 0, 8, 0x8D)
  | .segRemap => (8, 0, 8, 0xA1)
  | .displayAllOnResume => (8, 0, 8, 0xA4)
  | .normalDisplay => (8, 0, 8, 0xA6)
  | .setMuxRatio _ => (8, 0, 8, 0xA8)
  | .displayOff => (8, 0, 8, 0xAE)
  | .displayOn => (8, 0, 8, 0xAF)
  | .setPage _ => (8, 4, 4, 0xB)
  | .comScanDir => (8, 0, 8, 0xC8)
  | .setDisplayOffset _ => (8, 0, 8, 0xD3)
  | .setClockDiv _ => (8, 0, 8, 0xD5)
  | .setPrecharge _ => (8, 0, 8, 0xD9)
  | .setComPins _ => (8, 0, 8, 0xDA)
  | .setVcomLevel _ => (8, 0, 8, 0xDB)
  | .rsvdCmd2121 => (8, 0, 8, 0x21)
  | .rsvdCmd2223 _ => (8, 1, 7, 0x11)
  | .rsvdCmd2427 _ => (8, 2, 6, 0x9)
  | .rsvdCmd282B _ => (8, 2, 6, 0xA)
  | .rsvdCmd2C2D _ => (8, 1, 7, 0x16)
  | .rsvdCmd2F2F => (8, 0, 8, 0x2F)
  | .rsvdCmd303F _ => (8, 4, 4, 0x3)
  | .rsvdCmd4141 => (8, 0, 8, 0x41)
  | .rsvdCmd4243 _ => (8, 1, 7, 0x21)
  | .rsvdCmd4447 _ => (8, 2, 6, 0x11)
  | .rsvdCmd484F _ => (8, 3, 5, 0x9)
  | .rsvdCmd505F _ => (8, 4, 4, 0x5)
  | .rsvdCmd607F _ => (8, 5, 3, 0x3)
  | .rsvdCmd8080 => (8, 0, 8, 0x80)
  | .rsvdCmd8283 _ => (8, 1, 7, 0x41)
  | .rsvdCmd8487 _ => (8, 2, 6, 0x21)
  | .rsvdCmd888B _ => (8, 2, 6, 0x22)
  | .rsvdCmd8C8C => (8, 0, 8, 0x8C)
  | .rsvdCmd8E8F _ => (8, 1, 7, 0x47)
  | .rsvdCmd909F _ => (8, 4, 4, 0x9)
  | .rsvdCmdA0A0 => (8, 0, 8, 0xA0)
  | .rsvdCmdA2A3 _ => (8, 1, 7, 0x51)
  | .rsvdCmdA5A5 => (8, 0, 8, 0xA5)
  | .rsvdCmdA7A7 => (8, 0, 8, 0xA7)
  | .rsvdCmdA9A9 => (8, 0, 8, 0xA9)
  | .rsvdCmdAAAB _ => (8, 1, 7, 0x55)
  | .rsvdCmdACAD _ => (8, 1, 7, 0x56)
  | .rsvdCmdC0C7 _ => (8, 3, 5, 0x18)
  | .rsvdCmdC9C9 => (8, 0, 8, 0xC9)
  | .rsvdCmdCACB _ => (8, 1, 7, 0x65)
  | .rsvdCmdCCCF _ => (8, 2, 6, 0x33)
  | .rsvdCmdD0D1 _ => (8, 1, 7, 0x68)
  | .rsvdCmdD2D2 => (8, 0, 8, 0xD2)
  | .rsvdCmdD4D4 => (8, 0, 8, 0xD4)
  | .rsvdCmdD6D7 _ => (8, 1, 7, 0x6B)
  | .rsvdCmdD8D8 => (8, 0, 8, 0xD8)
  | .rsvdCmdDCDF _ => (8, 2, 6, 0x37)
  | .rsvdCmdE0FF _ => (8, 5, 3, 0x7)

/-- The encoding of a well-formed instruction has its row's width and fixed bits. -/
def Statement (i : Instr) : Prop :=
  WellFormed i = true →
    unitBits (encode i) = (row i).1 ∧ field (row i).2.1 (row i).2.2.1 (encode i) = (row i).2.2.2

theorem init (ign : BitVec 12) (sda scl : Byte) : Statement (.init ign sda scl) :=
  fun _ => by simp [unitBits, field, row, encode]

theorem setPixel (ign : BitVec 4) (x y color : Byte) : Statement (.setPixel ign x y color) :=
  fun _ => by simp [unitBits, field, row, encode]

theorem display (ign : BitVec 28) : Statement (.display ign) :=
  fun _ => by simp [unitBits, field, row, encode]

theorem clearDisplay (ign : BitVec 28) : Statement (.clearDisplay ign) :=
  fun _ => by simp [unitBits, field, row, encode]

theorem setPageMode (ign : BitVec 28) : Statement (.setPageMode ign) :=
  fun _ => by simp [unitBits, field, row, encode]

theorem setHorizontalMode (ign : BitVec 28) : Statement (.setHorizontalMode ign) :=
  fun _ => by simp [unitBits, field, row, encode]

theorem setPowerOn (ign : BitVec 28) : Statement (.setPowerOn ign) :=
  fun _ => by simp [unitBits, field, row, encode]

theorem setPowerOff (ign : BitVec 28) : Statement (.setPowerOff ign) :=
  fun _ => by simp [unitBits, field, row, encode]

theorem hostReserved0 (ign : BitVec 28) : Statement (.hostReserved0 ign) :=
  fun _ => by simp [unitBits, field, row, encode]

theorem hostReserved9 (ign : BitVec 28) : Statement (.hostReserved9 ign) :=
  fun _ => by simp [unitBits, field, row, encode]

theorem hostReservedA (ign : BitVec 28) : Statement (.hostReservedA ign) :=
  fun _ => by simp [unitBits, field, row, encode]

theorem hostReservedB (ign : BitVec 28) : Statement (.hostReservedB ign) :=
  fun _ => by simp [unitBits, field, row, encode]

theorem hostReservedC (ign : BitVec 28) : Statement (.hostReservedC ign) :=
  fun _ => by simp [unitBits, field, row, encode]

theorem hostReservedD (ign : BitVec 28) : Statement (.hostReservedD ign) :=
  fun _ => by simp [unitBits, field, row, encode]

theorem hostReservedE (ign : BitVec 28) : Statement (.hostReservedE ign) :=
  fun _ => by simp [unitBits, field, row, encode]

theorem hostReservedF (ign : BitVec 28) : Statement (.hostReservedF ign) :=
  fun _ => by simp [unitBits, field, row, encode]

theorem sendCommand (value : Byte) : Statement (.sendCommand value) :=
  fun _ => by simp [unitBits, field, row, encode, devAddr, ctrlCmd]

theorem sendData (value : Byte) : Statement (.sendData value) :=
  fun _ => by simp [unitBits, field, row, encode, devAddr, ctrlData]

theorem setCursorXY (columnUnit page : BitVec 4) : Statement (.setCursorXY columnUnit page) := by
  revert columnUnit page
  unfold Statement
  decide

theorem txnCommand (p : Byte) : Statement (.txnCommand p) :=
  fun _ => by simp [unitBits, field, row, encode, devAddr, ctrlCmd]

theorem txnData (d : Byte) : Statement (.txnData d) :=
  fun _ => by simp [unitBits, field, row, encode, devAddr, ctrlData]

theorem txnReservedCtrl (c p : Byte) : Statement (.txnReservedCtrl c p) :=
  fun _ => by simp [unitBits, field, row, encode, devAddr]

theorem txnOtherAddress (a : BitVec 7) (c p : Byte) : Statement (.txnOtherAddress a c p) :=
  fun _ => by simp [unitBits, field, row, encode]

theorem setColLow (n : BitVec 4) : Statement (.setColLow n) := by
  revert n
  unfold Statement
  decide

theorem setColHigh (n : BitVec 3) : Statement (.setColHigh n) := by
  revert n
  unfold Statement
  decide

theorem setColHighOutOfRange (n : BitVec 3) : Statement (.setColHighOutOfRange n) := by
  revert n
  unfold Statement
  decide

theorem setAddrMode (selector : Byte) : Statement (.setAddrMode selector) :=
  fun _ => ⟨rfl, rfl⟩

theorem stopScroll : Statement (.stopScroll) :=
  fun _ => ⟨rfl, rfl⟩

theorem startLine : Statement (.startLine) :=
  fun _ => ⟨rfl, rfl⟩

theorem setContrast (param : Byte) : Statement (.setContrast param) :=
  fun _ => ⟨rfl, rfl⟩

theorem chargePump (param : Byte) : Statement (.chargePump param) :=
  fun _ => ⟨rfl, rfl⟩

theorem segRemap : Statement (.segRemap) :=
  fun _ => ⟨rfl, rfl⟩

theorem displayAllOnResume : Statement (.displayAllOnResume) :=
  fun _ => ⟨rfl, rfl⟩

theorem normalDisplay : Statement (.normalDisplay) :=
  fun _ => ⟨rfl, rfl⟩

theorem setMuxRatio (param : Byte) : Statement (.setMuxRatio param) :=
  fun _ => ⟨rfl, rfl⟩

theorem displayOff : Statement (.displayOff) :=
  fun _ => ⟨rfl, rfl⟩

theorem displayOn : Statement (.displayOn) :=
  fun _ => ⟨rfl, rfl⟩

theorem setPage (n : BitVec 4) : Statement (.setPage n) := by
  revert n
  unfold Statement
  decide

theorem comScanDir : Statement (.comScanDir) :=
  fun _ => ⟨rfl, rfl⟩

theorem setDisplayOffset (param : Byte) : Statement (.setDisplayOffset param) :=
  fun _ => ⟨rfl, rfl⟩

theorem setClockDiv (param : Byte) : Statement (.setClockDiv param) :=
  fun _ => ⟨rfl, rfl⟩

theorem setPrecharge (param : Byte) : Statement (.setPrecharge param) :=
  fun _ => ⟨rfl, rfl⟩

theorem setComPins (param : Byte) : Statement (.setComPins param) :=
  fun _ => ⟨rfl, rfl⟩

theorem setVcomLevel (param : Byte) : Statement (.setVcomLevel param) :=
  fun _ => ⟨rfl, rfl⟩

theorem rsvdCmd2121 : Statement (.rsvdCmd2121) :=
  fun _ => ⟨rfl, rfl⟩

theorem rsvdCmd2223 (n : BitVec 1) : Statement (.rsvdCmd2223 n) := by
  revert n
  unfold Statement
  decide

theorem rsvdCmd2427 (n : BitVec 2) : Statement (.rsvdCmd2427 n) := by
  revert n
  unfold Statement
  decide

theorem rsvdCmd282B (n : BitVec 2) : Statement (.rsvdCmd282B n) := by
  revert n
  unfold Statement
  decide

theorem rsvdCmd2C2D (n : BitVec 1) : Statement (.rsvdCmd2C2D n) := by
  revert n
  unfold Statement
  decide

theorem rsvdCmd2F2F : Statement (.rsvdCmd2F2F) :=
  fun _ => ⟨rfl, rfl⟩

theorem rsvdCmd303F (n : BitVec 4) : Statement (.rsvdCmd303F n) := by
  revert n
  unfold Statement
  decide

theorem rsvdCmd4141 : Statement (.rsvdCmd4141) :=
  fun _ => ⟨rfl, rfl⟩

theorem rsvdCmd4243 (n : BitVec 1) : Statement (.rsvdCmd4243 n) := by
  revert n
  unfold Statement
  decide

theorem rsvdCmd4447 (n : BitVec 2) : Statement (.rsvdCmd4447 n) := by
  revert n
  unfold Statement
  decide

theorem rsvdCmd484F (n : BitVec 3) : Statement (.rsvdCmd484F n) := by
  revert n
  unfold Statement
  decide

theorem rsvdCmd505F (n : BitVec 4) : Statement (.rsvdCmd505F n) := by
  revert n
  unfold Statement
  decide

theorem rsvdCmd607F (n : BitVec 5) : Statement (.rsvdCmd607F n) := by
  revert n
  unfold Statement
  decide

theorem rsvdCmd8080 : Statement (.rsvdCmd8080) :=
  fun _ => ⟨rfl, rfl⟩

theorem rsvdCmd8283 (n : BitVec 1) : Statement (.rsvdCmd8283 n) := by
  revert n
  unfold Statement
  decide

theorem rsvdCmd8487 (n : BitVec 2) : Statement (.rsvdCmd8487 n) := by
  revert n
  unfold Statement
  decide

theorem rsvdCmd888B (n : BitVec 2) : Statement (.rsvdCmd888B n) := by
  revert n
  unfold Statement
  decide

theorem rsvdCmd8C8C : Statement (.rsvdCmd8C8C) :=
  fun _ => ⟨rfl, rfl⟩

theorem rsvdCmd8E8F (n : BitVec 1) : Statement (.rsvdCmd8E8F n) := by
  revert n
  unfold Statement
  decide

theorem rsvdCmd909F (n : BitVec 4) : Statement (.rsvdCmd909F n) := by
  revert n
  unfold Statement
  decide

theorem rsvdCmdA0A0 : Statement (.rsvdCmdA0A0) :=
  fun _ => ⟨rfl, rfl⟩

theorem rsvdCmdA2A3 (n : BitVec 1) : Statement (.rsvdCmdA2A3 n) := by
  revert n
  unfold Statement
  decide

theorem rsvdCmdA5A5 : Statement (.rsvdCmdA5A5) :=
  fun _ => ⟨rfl, rfl⟩

theorem rsvdCmdA7A7 : Statement (.rsvdCmdA7A7) :=
  fun _ => ⟨rfl, rfl⟩

theorem rsvdCmdA9A9 : Statement (.rsvdCmdA9A9) :=
  fun _ => ⟨rfl, rfl⟩

theorem rsvdCmdAAAB (n : BitVec 1) : Statement (.rsvdCmdAAAB n) := by
  revert n
  unfold Statement
  decide

theorem rsvdCmdACAD (n : BitVec 1) : Statement (.rsvdCmdACAD n) := by
  revert n
  unfold Statement
  decide

theorem rsvdCmdC0C7 (n : BitVec 3) : Statement (.rsvdCmdC0C7 n) := by
  revert n
  unfold Statement
  decide

theorem rsvdCmdC9C9 : Statement (.rsvdCmdC9C9) :=
  fun _ => ⟨rfl, rfl⟩

theorem rsvdCmdCACB (n : BitVec 1) : Statement (.rsvdCmdCACB n) := by
  revert n
  unfold Statement
  decide

theorem rsvdCmdCCCF (n : BitVec 2) : Statement (.rsvdCmdCCCF n) := by
  revert n
  unfold Statement
  decide

theorem rsvdCmdD0D1 (n : BitVec 1) : Statement (.rsvdCmdD0D1 n) := by
  revert n
  unfold Statement
  decide

theorem rsvdCmdD2D2 : Statement (.rsvdCmdD2D2) :=
  fun _ => ⟨rfl, rfl⟩

theorem rsvdCmdD4D4 : Statement (.rsvdCmdD4D4) :=
  fun _ => ⟨rfl, rfl⟩

theorem rsvdCmdD6D7 (n : BitVec 1) : Statement (.rsvdCmdD6D7 n) := by
  revert n
  unfold Statement
  decide

theorem rsvdCmdD8D8 : Statement (.rsvdCmdD8D8) :=
  fun _ => ⟨rfl, rfl⟩

theorem rsvdCmdDCDF (n : BitVec 2) : Statement (.rsvdCmdDCDF n) := by
  revert n
  unfold Statement
  decide

theorem rsvdCmdE0FF (n : BitVec 5) : Statement (.rsvdCmdE0FF n) := by
  revert n
  unfold Statement
  decide

end Sys2Proof.Laws.RowPattern
end

