-- ==== Sys2Proof/Laws/Step.lean ====
section
/-! SUPPORT. What a step can do, said once. -/

namespace Sys2Proof.Machine

/-- A step that answers a next state runs a decoded instruction, or moves without one. -/
theorem step_cases {s t : State} (h : step s = .next t) :
    (∃ i u, fetch s = .run i u ∧ exec i u = .next t) ∨ fetch s = .move t := by
  unfold step at h
  cases hf : fetch s with
  | run i u => rw [hf] at h; exact .inl ⟨i, u, rfl, h⟩
  | move u => rw [hf] at h; injection h with h; exact .inr (by rw [h])
  | bad r => rw [hf] at h; cases h

/-- With no arrival the block moves by itself. -/
theorem fetch_noArrival {s : State} (h : noArrival s = true) : fetch s = fetchOwn s := by
  unfold noArrival at h
  unfold fetch
  cases hi : s.inputs with
  | nil => rfl
  | cons x rest => rw [hi] at h; cases x <;> first | rfl | cases h

/-- What the block does by itself: the sequencer's step, a step of a bench's calls, the host's next word, or nothing. -/
theorem fetchOwn_cases (s : State) :
    (s.fbc.seq ≠ .idle ∧ fetchOwn s = .move (sequencerStep s)) ∨
    (s.fbc.seq = .idle ∧ s.calls ≠ [] ∧ fetchOwn s = .move (callStep s).1) ∨
    (s.fbc.seq = .idle ∧ s.calls = [] ∧ ∃ w rest, s.program = w :: rest ∧
      fetchOwn s = .run (decodeHost w) { s with program := rest }) ∨
    (s.fbc.seq = .idle ∧ s.calls = [] ∧ s.program = [] ∧ fetchOwn s = .move s) := by
  by_cases hi : s.fbc.seq = .idle
  · cases hc : s.calls with
    | cons e more => exact .inr (.inl ⟨hi, by simp, by simp [fetchOwn, hi, hc]⟩)
    | nil =>
      cases hp : s.program with
      | cons w rest => exact .inr (.inr (.inl ⟨hi, rfl, w, rest, rfl, by simp [fetchOwn, hi, hc, hp]⟩))
      | nil => exact .inr (.inr (.inr ⟨hi, rfl, rfl, by simp [fetchOwn, hi, hc, hp]⟩))
  · exact .inl ⟨hi, by simp [fetchOwn, hi]⟩

/-- A block at rest is in `IDLE`, with no call in progress and the transport free. -/
theorem atRest_iff (s : State) :
    atRest s = true ↔ s.fbc.seq = .idle ∧ s.calls = [] ∧ s.fbc.inFlight = false := by
  simp [atRest, and_assoc]

/-- A step in which a bench's calls go on. -/
theorem step_calls {s : State} (ha : noArrival s = true) (h : s.fbc.seq = .idle) (hc : s.calls ≠ []) :
    step s = .next (callStep s).1 := by
  have := fetch_noArrival ha
  cases hl : s.calls with
  | nil => exact absurd hl hc
  | cons e rest => simp [step, this, fetchOwn, h, hl]

/-- A step of a busy sequencer. -/
theorem step_busy {s : State} (ha : noArrival s = true) (h : s.fbc.seq ≠ .idle) :
    step s = .next (sequencerStep s) := by
  have := fetch_noArrival ha
  simp [step, this, fetchOwn, h]

/-- A step of a busy sequencer whose event the transport completes and delivers at once. -/
theorem step_busy_done {s : State} {e : Event} {rest : List Input} (h : s.fbc.seq ≠ .idle)
    (he : seqEvent s.fbc = some e) (hf : s.fbc.inFlight = false) (hi : s.inputs = .done :: rest) :
    step s =
      .next (seqAdvance
        { s with
          inputs := rest
          drf := deliver e s.drf
          fbc := { seqPrepare s.fbc with trace := s.fbc.trace ++ [e], inFlight := false } }) := by
  have ha : noArrival s = true := by simp [noArrival, hi, Input.isAnswer]
  have ht := transact_done (e := e) (s := { s with fbc := seqPrepare s.fbc }) (rest := rest)
    (by simpa using hf) hi
  rw [step_busy ha h]
  simp [sequencerStep, seqEvent_prepare, he, ht]

/-- `n + 1` steps are a step and `n` steps. -/
theorem steps_succ {s t : State} {n : Nat} (h : step s = .next t) : steps (n + 1) s = steps n t := by
  simp [steps, h]

/-- Steps one after the other. -/
theorem steps_add {m n : Nat} {s t : State} (h : steps m s = .next t) : steps (m + n) s = steps n t := by
  induction m generalizing s with
  | zero => simp [steps] at h; simp [h]
  | succ m ih =>
    cases hs : step s with
    | next u =>
      rw [steps_succ hs] at h
      rw [Nat.succ_add, steps_succ hs]
      exact ih h
    | fault r => simp [steps, hs] at h
    | refused r => simp [steps, hs] at h

end Sys2Proof.Machine
end

