-- ==== Sys2Proof/Tests/Slice0.lean ====
section
/-! SUPPORT. Tests of the model on values of the spec (95_test_vectors and the examples of its rules), and for each
statement with hypotheses the witness that something meets them all. -/

namespace Sys2Proof.Tests

open Sys2Proof.Machine

/-! ## Helpers -/

/-- The reset state with an empty framebuffer, so that a test evaluates. -/
def quiet : State := { State.reset with fbc := { State.reset.fbc with fb := [] } }

/-- The same with the bus started. -/
def started : State := { quiet with fbc := { quiet.fbc with busStarted := true } }

/-- `quiet` with DRF changed. -/
def withDrf (f : Drf → Drf) : State := { quiet with drf := f quiet.drf }

/-- `started` with one word to present and inputs to come. -/
def ready (w : OpWord) (xs : List Input) : State := { started with program := [w], inputs := xs }

/-- `started` at a sequencer position, with inputs to come. -/
def at' (q : Seq) (xs : List Input) : State := { started with fbc := { started.fbc with seq := q }, inputs := xs }

/-- The outcome is a next state with the property. -/
def after (r : Result) (p : State → Bool) : Bool :=
  match r with
  | .next t => p t
  | .fault _ => false
  | .refused _ => false

/-- The framebuffer byte at an address after an operation word, from one byte before. -/
def pixelTest (a : Nat) (old : Byte) (w : OpWord) (new : Byte) : Bool :=
  after (exec (decodeHost w) { quiet with fbc := { quiet.fbc with fb := Memory.write [] a old } }) fun t =>
    Memory.read t.fbc.fb a == new && decide (t.fbc.trace = []) && t.fbc.noFault

/-- A list of transactions received one after the other. -/
def received (ts : List Txn) (d : Drf) : Drf := ts.foldl (fun d t => receive t d) d

/-! ## Well-formedness: an ill-formed term for each check -/

theorem test_illformed_control_command : WellFormed (.txnReservedCtrl 0x80 0xAE) = false := by decide
theorem test_illformed_control_data : WellFormed (.txnReservedCtrl 0x40 0x00) = false := by decide
theorem test_illformed_other_address : WellFormed (.txnOtherAddress 0x3C 0x80 0xAE) = false := by decide
theorem test_wellformed_neighbours :
    WellFormed (.txnReservedCtrl 0xC0 0x00) = true ∧ WellFormed (.txnOtherAddress 0x3D 0x80 0xAE) = true := by decide

/-! ## Decoding: words written out from the spec's encodings, every constructor once -/

/-- 30_encoding R92 to R94, 95_test_vectors L2-1. -/
theorem test_decode_operations :
    decodeHost 0b0001_0000_0000_0000_0000_0100_0000_0101 = .init 0 4 5 ∧
    decodeHost 0x1ABC7F7F = .init 0xABC 127 127 ∧
    decodeHost 0b0010_0000_0111_1111_0011_1111_0000_0001 = .setPixel 0 127 63 1 ∧
    decodeHost 0x2F050A01 = .setPixel 0xF 5 10 1 ∧
    decodeHost 0x3FFFFFFF = .display 0xFFFFFFF ∧
    decodeHost 0x40000000 = .clearDisplay 0 ∧
    decodeHost 0x50000000 = .setPageMode 0 ∧
    decodeHost 0x60000000 = .setHorizontalMode 0 ∧
    decodeHost 0x70000000 = .setPowerOn 0 ∧
    decodeHost 0x80000001 = .setPowerOff 1 := by decide

/-- 30_encoding R95. -/
theorem test_decode_reserved_operations :
    decodeHost 0x00000000 = .hostReserved0 0 ∧ decodeHost 0x90000000 = .hostReserved9 0 ∧
    decodeHost 0xA0000002 = .hostReservedA 2 ∧ decodeHost 0xB0000000 = .hostReservedB 0 ∧
    decodeHost 0xC0000000 = .hostReservedC 0 ∧ decodeHost 0xD0000000 = .hostReservedD 0 ∧
    decodeHost 0xE0000000 = .hostReservedE 0 ∧ decodeHost 0xFFFFFFFF = .hostReservedF 0xFFFFFFF := by decide

/-- 30_encoding R96 and R106, 95_test_vectors L2-3: the transaction is `0111100 cccccccc pppppppp`. -/
theorem test_decode_primitives :
    decode (.send 0b0111100_10000000_10101111) = .ok (.sendCommand 0xAF) ∧
    decode (.send 0b0111100_01000000_10000001) = .ok (.sendData 0x81) ∧
    decode (.send 0b0111100_01000001_10000001) = .reject .notAPrimitive ∧
    decode (.cursor (0x3C8008#23 ++ 0x3C8017#23 ++ 0x3C80B7#23)) = .ok (.setCursorXY 15 7) ∧
    decode (.cursor (0x3C8008#23 ++ 0x3C8010#23 ++ 0x3C80B0#23)) = .ok (.setCursorXY 1 0) ∧
    decode (.cursor (0x3C8001#23 ++ 0x3C8010#23 ++ 0x3C80B0#23)) = .reject .notAPrimitive := by decide

/-- 30_encoding R96, R97, 45_display_register_fsm R220 to R222. -/
theorem test_decode_transactions :
    decodeTxn 0b0111100_10000000_00000010 = .txnCommand 0x02 ∧
    decodeTxn 0b0111100_01000000_00000010 = .txnData 0x02 ∧
    decodeTxn 0b0111100_11000000_00000000 = .txnReservedCtrl 0xC0 0x00 ∧
    decodeTxn 0b0111101_10000000_10101110 = .txnOtherAddress 0x3D 0x80 0xAE := by decide

/-- 30_encoding R98: the defined one-byte commands. -/
theorem test_decode_one_byte_commands :
    decode (.command [0x0F]) = .ok (.setColLow 15) ∧ decode (.command [0x17]) = .ok (.setColHigh 7) ∧
    decode (.command [0x18]) = .ok (.setColHighOutOfRange 0) ∧ decode (.command [0x1F]) = .ok (.setColHighOutOfRange 7) ∧
    decode (.command [0x2E]) = .ok .stopScroll ∧ decode (.command [0x40]) = .ok .startLine ∧
    decode (.command [0xA1]) = .ok .segRemap ∧ decode (.command [0xA4]) = .ok .displayAllOnResume ∧
    decode (.command [0xA6]) = .ok .normalDisplay ∧ decode (.command [0xAE]) = .ok .displayOff ∧
    decode (.command [0xAF]) = .ok .displayOn ∧ decode (.command [0xBF]) = .ok (.setPage 15) ∧
    decode (.command [0xC8]) = .ok .comScanDir := by decide

/-- 30_encoding R99: the nine two-byte commands. -/
theorem test_decode_two_byte_commands :
    decode (.command [0x20, 0x02]) = .ok (.setAddrMode 0x02) ∧ decode (.command [0x81, 0xCF]) = .ok (.setContrast 0xCF) ∧
    decode (.command [0x8D, 0x14]) = .ok (.chargePump 0x14) ∧ decode (.command [0xA8, 0x3F]) = .ok (.setMuxRatio 0x3F) ∧
    decode (.command [0xD3, 0x00]) = .ok (.setDisplayOffset 0x00) ∧
    decode (.command [0xD5, 0x80]) = .ok (.setClockDiv 0x80) ∧ decode (.command [0xD9, 0xF1]) = .ok (.setPrecharge 0xF1) ∧
    decode (.command [0xDA, 0x12]) = .ok (.setComPins 0x12) ∧ decode (.command [0xDB, 0x40]) = .ok (.setVcomLevel 0x40) := by
  decide

/-- The command decoder refuses what is no whole command, each by its name. -/
theorem test_decode_refusals :
    decode (.command []) = .reject .noByte ∧ decode (.command [0x20]) = .reject (.parameterMissing 0x20) ∧
    decode (.command [0xAE, 0x00]) = .reject .trailingBytes := by decide

/-- opcode_table.json, the reserved rows below `0x80`. -/
theorem test_decode_reserved_low :
    decode (.command [0x21]) = .ok .rsvdCmd2121 ∧ decode (.command [0x23]) = .ok (.rsvdCmd2223 1) ∧
    decode (.command [0x26]) = .ok (.rsvdCmd2427 2) ∧ decode (.command [0x2B]) = .ok (.rsvdCmd282B 3) ∧
    decode (.command [0x2C]) = .ok (.rsvdCmd2C2D 0) ∧ decode (.command [0x2F]) = .ok .rsvdCmd2F2F ∧
    decode (.command [0x3A]) = .ok (.rsvdCmd303F 10) ∧ decode (.command [0x41]) = .ok .rsvdCmd4141 ∧
    decode (.command [0x42]) = .ok (.rsvdCmd4243 0) ∧ decode (.command [0x47]) = .ok (.rsvdCmd4447 3) ∧
    decode (.command [0x4D]) = .ok (.rsvdCmd484F 5) ∧ decode (.command [0x5F]) = .ok (.rsvdCmd505F 15) ∧
    decode (.command [0x7F]) = .ok (.rsvdCmd607F 31) := by decide

/-- The reserved rows from `0x80` to `0xBF`. -/
theorem test_decode_reserved_mid :
    decode (.command [0x80]) = .ok .rsvdCmd8080 ∧ decode (.command [0x83]) = .ok (.rsvdCmd8283 1) ∧
    decode (.command [0x85]) = .ok (.rsvdCmd8487 1) ∧ decode (.command [0x88]) = .ok (.rsvdCmd888B 0) ∧
    decode (.command [0x8C]) = .ok .rsvdCmd8C8C ∧ decode (.command [0x8E]) = .ok (.rsvdCmd8E8F 0) ∧
    decode (.command [0x99]) = .ok (.rsvdCmd909F 9) ∧ decode (.command [0xA0]) = .ok .rsvdCmdA0A0 ∧
    decode (.command [0xA3]) = .ok (.rsvdCmdA2A3 1) ∧ decode (.command [0xA5]) = .ok .rsvdCmdA5A5 ∧
    decode (.command [0xA7]) = .ok .rsvdCmdA7A7 ∧ decode (.command [0xA9]) = .ok .rsvdCmdA9A9 ∧
    decode (.command [0xAB]) = .ok (.rsvdCmdAAAB 1) ∧ decode (.command [0xAD]) = .ok (.rsvdCmdACAD 1) := by decide

/-- The reserved rows from `0xC0` on. -/
theorem test_decode_reserved_high :
    decode (.command [0xC0]) = .ok (.rsvdCmdC0C7 0) ∧ decode (.command [0xC9]) = .ok .rsvdCmdC9C9 ∧
    decode (.command [0xCB]) = .ok (.rsvdCmdCACB 1) ∧ decode (.command [0xCE]) = .ok (.rsvdCmdCCCF 2) ∧
    decode (.command [0xD1]) = .ok (.rsvdCmdD0D1 1) ∧ decode (.command [0xD2]) = .ok .rsvdCmdD2D2 ∧
    decode (.command [0xD4]) = .ok .rsvdCmdD4D4 ∧ decode (.command [0xD7]) = .ok (.rsvdCmdD6D7 1) ∧
    decode (.command [0xD8]) = .ok .rsvdCmdD8D8 ∧ decode (.command [0xDD]) = .ok (.rsvdCmdDCDF 1) ∧
    decode (.command [0xE3]) = .ok (.rsvdCmdE0FF 3) ∧ decode (.command [0xFF]) = .ok (.rsvdCmdE0FF 31) := by decide

/-- The table's numbering: the lowest bit of a row is bit 0 of the number. -/
theorem test_decode_table_words :
    decodeTableWord 8 0xB3 = some (.setPage 3) ∧ decodeTableWord 8 0x20 = some (.setAddrMode 0) ∧
    decodeTableWord 16 0x0220 = some (.setAddrMode 0x02) ∧ decodeTableWord 24 0x3C4081 = some (.txnData 0x81) ∧
    decodeTableWord 32 0x207F3F01 = some (.setPixel 0 127 63 1) ∧
    decodeTableWord 72 ((0x3C8008 * 2 ^ 23 + 0x3C8017) * 2 ^ 23 + 0x3C80B7) = some (.setCursorXY 15 7) := by decide

/-! ## SET_PIXEL and CLEAR_DISPLAY (95_test_vectors L2-2, L1-2) -/

theorem test_pixel_corners :
    pixelTest 0 0x00 0x20000001 0x01 = true ∧ pixelTest 0 0x00 0x20000701 0x80 = true ∧
    pixelTest 128 0x00 0x20000801 0x01 = true ∧ pixelTest 1023 0x00 0x207F3F01 0x80 = true ∧
    pixelTest 448 0xFF 0x20401C00 0xEF = true ∧ pixelTest 133 0x00 0x20050A02 0x04 = true ∧
    pixelTest 133 0xF4 0x20050A00 0xF0 = true := by decide

theorem test_pixel_out_of_range :
    after (exec (decodeHost 0x20800001) quiet) (fun t => decide (t.fbc.fCoord = ⟨true, 0x20800001⟩ ∧ t.fbc.fb = [])) = true ∧
    after (exec (decodeHost 0x20004001) quiet) (fun t => t.fbc.fCoord.flag) = true ∧
    after (exec (decodeHost 0x20C80001) quiet) (fun t => t.fbc.fCoord.flag && decide (t.fbc.fb = [])) = true := by decide

theorem test_clear :
    after (exec (decodeHost 0x40000000) { quiet with fbc := { quiet.fbc with fb := [(0, 1), (1023, 0x80)] } })
      (fun t => decide (t.fbc.fb = []) && t.fbc.noFault) = true := by decide

/-! ## The bus operations (95_test_vectors L2-4 to L2-6, P4) -/

theorem test_init_accepted :
    after (exec (decodeHost 0x100004FF) quiet) (fun t => decide (t.fbc.seq = .initCfg 4 0xFF)) = true := by decide

theorem test_init_both_pins_needed :
    after (step (at' (.initCfg 4 0xFF) [])) (fun t => decide (t.fbc.pins = .default ∧ t.fbc.trace = [] ∧
      t.fbc.seq = .initStart)) = true ∧
    after (step (at' (.initCfg 0 0) [.done])) (fun t => decide (t.fbc.pins = .custom 0 0 ∧
      t.fbc.trace = [.busConfig 0 0] ∧ t.fbc.seq = .initStart)) = true := by decide

theorem test_init_selector_writes_flag :
    after (step { at' (.initSend 11) [.done] with fbc := { (at' (.initSend 11) []).fbc with modeFlag := .page } })
      (fun t => decide (t.fbc.modeFlag = .horizontal ∧ t.fbc.seq = .initSend 12 ∧
        t.fbc.trace = [.txn ⟨0x3C, 0x80, 0x00⟩])) = true := by decide

theorem test_init_last_byte :
    after (step (at' (.initSend 25) [.done])) (fun t => decide (t.fbc.seq = .idle ∧ t.drf.displayOn = true ∧
      t.fbc.trace = [.txn ⟨0x3C, 0x80, 0xAF⟩])) = true := by decide

theorem test_display_accepted :
    after (exec (decodeHost 0x3FFFFFFF) started) (fun t => decide (t.fbc.seq = .flush .curLo ∧ t.fbc.idx = 0)) = true := by
  decide

theorem test_before_init_faults :
    after (exec (decodeHost 0x30000000) quiet) (fun t => decide (t.fbc.fBusNotStarted = ⟨true, 0x30000000⟩ ∧
      t.fbc.seq = .idle ∧ t.fbc.trace = [])) = true ∧
    after (exec (decodeHost 0x70000000) quiet) (fun t => t.fbc.fBusNotStarted.flag) = true ∧
    after (exec (decodeHost 0x80000000) quiet) (fun t => t.fbc.fBusNotStarted.flag) = true := by decide

theorem test_page_mode_flag_written_last :
    after (step (at' (.mode .page 0) [.done])) (fun t => decide (t.fbc.modeFlag = .horizontal ∧
      t.fbc.seq = .mode .page 1 ∧ t.drf.pending = some .addrMode)) = true ∧
    after (step { at' (.mode .page 1) [.done] with drf := { quiet.drf with pending := some .addrMode } })
      (fun t => decide (t.fbc.modeFlag = .page ∧ t.fbc.seq = .idle ∧ t.drf.addrMode = .page)) = true := by decide

theorem test_power_off_byte :
    after (step (at' (.power false) [.done])) (fun t => decide (t.fbc.seq = .idle ∧
      t.fbc.trace = [.txn ⟨0x3C, 0x80, 0xAE⟩])) = true := by decide

theorem test_flush_next_group :
    after (step { at' (.flush .data) [.done] with fbc := { (at' (.flush .data) []).fbc with idx := 127 } })
      (fun t => decide (t.fbc.seq = .flush .curLo ∧ t.fbc.idx = 128)) = true ∧
    after (step { at' (.flush .data) [.done] with fbc := { (at' (.flush .data) []).fbc with idx := 7 } })
      (fun t => decide (t.fbc.seq = .flush .data ∧ t.fbc.idx = 8)) = true ∧
    after (step { at' (.flush .data) [.done] with
        fbc := { (at' (.flush .data) []).fbc with idx := 7 }, stride := .every8 })
      (fun t => decide (t.fbc.seq = .flush .curLo ∧ t.fbc.idx = 8)) = true ∧
    after (step { at' (.flush .data) [.done] with fbc := { (at' (.flush .data) []).fbc with idx := 1023 } })
      (fun t => decide (t.fbc.seq = .idle)) = true := by decide

theorem test_reserved_operation_keeps_first_word :
    after (exec (decodeHost 0x90000000) quiet) (fun t => decide (t.fbc.fBadop = ⟨true, 0x90000000⟩)) = true ∧
    after (exec (decodeHost 0x00000000) { quiet with fbc := { quiet.fbc with fBadop := ⟨true, 0x90000000⟩ } })
      (fun t => decide (t.fbc.fBadop = ⟨true, 0x90000000⟩)) = true := by decide

theorem test_reserved_operations :
    ([.hostReserved0 1, .hostReserved9 1, .hostReservedA 1, .hostReservedB 1, .hostReservedC 1, .hostReservedD 1,
      .hostReservedE 1, .hostReservedF 1] : List Instr).all
        (fun i => after (exec i quiet) fun t => t.fbc.fBadop.flag && decide (encode i = .host t.fbc.fBadop.info)) = true := by
  decide

/-! ## The primitives (95_test_vectors L2-3) -/

theorem test_send_command :
    after (exec (.sendCommand 0xFF) { started with inputs := [.done] })
      (fun t => decide (t.fbc.trace = [.txn ⟨0x3C, 0x80, 0xFF⟩]) && t.drf.fRsvdCmd.flag) = true ∧
    after (exec (.sendCommand 0xFF) { started with inputs := [.lost] })
      (fun t => decide (t.fbc.trace = [.txn ⟨0x3C, 0x80, 0xFF⟩]) && t.drf.noFault) = true := by decide

theorem test_send_data_hangs :
    after (exec (.sendData 0x81) { started with inputs := [.wait] })
      (fun t => decide (t.fbc.trace = [.txn ⟨0x3C, 0x40, 0x81⟩] ∧ t.fbc.inFlight = true ∧ t.calls = [.txn ⟨0x3C, 0x40, 0x81⟩] ∧
        t.drf.gddram = [])) = true := by decide

theorem test_set_cursor :
    after (exec (.setCursorXY 3 5) { started with inputs := [.done, .done, .done] })
      (fun t => decide (t.fbc.trace = [.txn ⟨0x3C, 0x80, 0x08⟩, .txn ⟨0x3C, 0x80, 0x11⟩, .txn ⟨0x3C, 0x80, 0xB5⟩] ∧
        t.drf.col = 24 ∧ t.drf.page = 5)) = true := by decide

/-- 40_bus_primitives R130, R132: a send that is held holds the two after it, and they follow. -/
theorem test_set_cursor_held :
    after (steps 4 { started with inputs := [.callCursor (0x3C8008#23 ++ 0x3C8011#23 ++ 0x3C80B5#23), .wait, .done, .done, .done] })
      (fun t => atRest t && decide (t.fbc.trace =
        [.txn ⟨0x3C, 0x80, 0x08⟩, .txn ⟨0x3C, 0x80, 0x11⟩, .txn ⟨0x3C, 0x80, 0xB5⟩] ∧
        t.drf.col = 24 ∧ t.drf.page = 5)) = true := by decide

/-- 00_scope R12, 20_memory R70: an operation and a call whose transactions are equal each emit their own, whichever
comes first. -/
theorem test_call_and_operation_each_emit :
    after (steps 4 { ready 0x70000000 [.callSend 0x3C80AF, .wait, .done, .done] with program := [0x70000000] })
      (fun t => atRest t && decide (t.program = [] ∧
        t.fbc.trace = [.txn ⟨0x3C, 0x80, 0xAF⟩, .txn ⟨0x3C, 0x80, 0xAF⟩])) = true ∧
    after (steps 4 (at' (.power true) [.wait, .callSend 0x3C80AF, .done, .done]))
      (fun t => atRest t && decide (t.fbc.trace = [.txn ⟨0x3C, 0x80, 0xAF⟩, .txn ⟨0x3C, 0x80, 0xAF⟩])) = true := by
  decide

/-! ## DRF (95_test_vectors L2-7, L2-8) -/

theorem test_column_low :
    after (exec (.setColLow 8) (withDrf fun d => { d with col := 0x75 })) (fun t => t.drf.col == 0x78) = true ∧
    after (exec (.setColLow 0) (withDrf fun d => { d with col := 0x7F })) (fun t => t.drf.col == 0x70) = true := by decide

theorem test_column_high :
    after (exec (.setColHigh 7) (withDrf fun d => { d with col := 0x08 })) (fun t => t.drf.col == 0x78) = true ∧
    after (exec (.setColHigh 0) (withDrf fun d => { d with col := 0x7F })) (fun t => t.drf.col == 0x0F) = true := by decide

theorem test_column_refused :
    after (exec (.setColHighOutOfRange 7) (withDrf fun d => { d with col := 5 }))
      (fun t => t.drf.col == 5 && decide (t.drf.fColRange = ⟨true, 0x3C801F⟩)) = true := by decide

theorem test_page :
    after (exec (.setPage 15) quiet) (fun t => t.drf.page == 15 && t.drf.noFault) = true := by decide

theorem test_addressing_mode :
    after (exec (.setAddrMode 0x02) quiet) (fun t => decide (t.drf.addrMode = .page ∧ t.drf.pending = none)) = true ∧
    after (exec (.setAddrMode 0x20) (withDrf fun d => { d with addrMode := .page })) (fun t =>
      decide (t.drf.addrMode = .page ∧ t.drf.pending = none ∧ t.drf.fBadSelector = ⟨true, 0x3C8020⟩)) = true := by decide

theorem test_one_byte_latches :
    after (exec .startLine quiet) (fun t => t.drf.startLineCmd == 0x40) = true ∧
    after (exec .segRemap quiet) (fun t => t.drf.segRemapCmd == 0xA1) = true ∧
    after (exec .comScanDir quiet) (fun t => t.drf.comScanCmd == 0xC8) = true ∧
    after (exec .stopScroll (withDrf fun d => { d with scrollActive := true })) (fun t => !t.drf.scrollActive) = true ∧
    after (exec .displayAllOnResume (withDrf fun d => { d with entireOn := true })) (fun t => !t.drf.entireOn) = true ∧
    after (exec .normalDisplay (withDrf fun d => { d with inverse := true })) (fun t => !t.drf.inverse) = true := by decide

theorem test_power :
    after (exec .displayOn quiet) (fun t => t.drf.displayOn) = true ∧
    after (exec .displayOff (withDrf fun d => { d with displayOn := true })) (fun t => !t.drf.displayOn) = true := by decide

theorem test_two_byte_latches :
    after (exec (.setContrast 0x81) quiet) (fun t => t.drf.contrast == 0x81 && decide (t.drf.pending = none)) = true ∧
    after (exec (.chargePump 0x14) quiet) (fun t => t.drf.chargePump == 0x14) = true ∧
    after (exec (.setMuxRatio 0x3F) quiet) (fun t => t.drf.muxRatio == 0x3F) = true ∧
    after (exec (.setDisplayOffset 0x07) quiet) (fun t => t.drf.dispOffset == 0x07 && t.drf.col == 0) = true ∧
    after (exec (.setClockDiv 0xFF) quiet) (fun t => t.drf.clkDiv == 0xFF && t.drf.noFault) = true ∧
    after (exec (.setPrecharge 0xF1) quiet) (fun t => t.drf.precharge == 0xF1) = true ∧
    after (exec (.setComPins 0x12) quiet) (fun t => t.drf.comPins == 0x12 && t.drf.col == 0) = true ∧
    after (exec (.setVcomLevel 0x40) quiet) (fun t => t.drf.vcomLevel == 0x40 && t.drf.startLineCmd == 0) = true := by
  decide

/-- 70_reset_and_hazards R312: with a parameter pending the power byte is a selector. -/
theorem test_pending_swallows :
    after (exec .displayOn (withDrf fun d => { d with pending := some .addrMode }))
      (fun t => !t.drf.displayOn && t.drf.fBadSelector.flag && decide (t.drf.pending = none)) = true ∧
    after (exec (.setContrast 0xAF) (withDrf fun d => { d with pending := some .muxRatio }))
      (fun t => t.drf.muxRatio == 0x81 && t.drf.displayOn && t.drf.contrast == 0) = true := by decide

theorem test_data_horizontal :
    after (exec (.txnData 0xAA) (withDrf fun d => { d with col := 127 })) (fun t =>
      decide (t.drf.gddram = [(127, 0xAA)] ∧ t.drf.col = 0 ∧ t.drf.page = 1)) = true ∧
    after (exec (.txnData 0x80) (withDrf fun d => { d with col := 127, page := 7 })) (fun t =>
      decide (t.drf.gddram = [(1023, 0x80)] ∧ t.drf.col = 0 ∧ t.drf.page = 0)) = true := by decide

theorem test_data_page_mode :
    after (exec (.txnData 0x55) (withDrf fun d => { d with addrMode := .page, col := 127, page := 3 })) (fun t =>
      decide (t.drf.gddram = [(511, 0x55)] ∧ t.drf.col = 0 ∧ t.drf.page = 3)) = true ∧
    after (exec (.txnData 0x04) (withDrf fun d => { d with addrMode := .page, col := 5, page := 1 })) (fun t =>
      decide (t.drf.gddram = [(133, 0x04)] ∧ t.drf.col = 6 ∧ t.drf.page = 1)) = true := by decide

theorem test_data_refused :
    after (exec (.txnData 0x01) (withDrf fun d => { d with page := 8 })) (fun t =>
      decide (t.drf.gddram = [] ∧ t.drf.page = 8 ∧ t.drf.fRamRange = ⟨true, 0x3C4001⟩)) = true ∧
    after (exec (.txnData 0x33) (withDrf fun d => { d with page := 9, pending := some .addrMode })) (fun t =>
      decide (t.drf.pending = some .addrMode) && t.drf.fProto.flag && !t.drf.fRamRange.flag) = true := by decide

theorem test_command_transaction :
    after (exec (.txnCommand 0x20) quiet) (fun t => decide (t.drf.pending = some .addrMode)) = true ∧
    after (exec (.txnCommand 0x00) (withDrf fun d => { d with pending := some .addrMode, addrMode := .page, col := 3 }))
      (fun t => decide (t.drf.addrMode = .horizontal ∧ t.drf.col = 3 ∧ t.drf.pending = none)) = true := by decide

theorem test_reserved_control_and_other_address :
    after (exec (.txnReservedCtrl 0x00 0xAE) (withDrf fun d => { d with displayOn := true }))
      (fun t => t.drf.displayOn && decide (t.drf.fRsvdCtrl = ⟨true, 0x3C00AE⟩)) = true ∧
    after (exec (.txnOtherAddress 0x3D 0x80 0xAE) (withDrf fun d => { d with displayOn := true }))
      (fun t => t.drf.displayOn && t.drf.noFault) = true := by decide

/-- Every reserved row raises RsvdCmd, with its own byte as the payload of the information word. -/
theorem test_reserved_commands_low :
    ([.rsvdCmd2121, .rsvdCmd2223 1, .rsvdCmd2427 2, .rsvdCmd282B 3, .rsvdCmd2C2D 0, .rsvdCmd2F2F, .rsvdCmd303F 10,
      .rsvdCmd4141, .rsvdCmd4243 0, .rsvdCmd4447 3, .rsvdCmd484F 5, .rsvdCmd505F 15, .rsvdCmd607F 31] : List Instr).map
        (fun i => match exec i quiet with
          | .next t => some t.drf.fRsvdCmd.info
          | .fault _ => none
          | .refused _ => none) =
      ([0x3C8021, 0x3C8023, 0x3C8026, 0x3C802B, 0x3C802C, 0x3C802F, 0x3C803A, 0x3C8041, 0x3C8042, 0x3C8047, 0x3C804D,
        0x3C805F, 0x3C807F] : List TxnWord).map some := by decide

theorem test_reserved_commands_high :
    ([.rsvdCmd8080, .rsvdCmd8283 1, .rsvdCmd8487 1, .rsvdCmd888B 0, .rsvdCmd8C8C, .rsvdCmd8E8F 0, .rsvdCmd909F 9,
      .rsvdCmdA0A0, .rsvdCmdA2A3 1, .rsvdCmdA5A5, .rsvdCmdA7A7, .rsvdCmdA9A9, .rsvdCmdAAAB 1, .rsvdCmdACAD 1,
      .rsvdCmdC0C7 0, .rsvdCmdC9C9, .rsvdCmdCACB 1, .rsvdCmdCCCF 2, .rsvdCmdD0D1 1, .rsvdCmdD2D2, .rsvdCmdD4D4,
      .rsvdCmdD6D7 1, .rsvdCmdD8D8, .rsvdCmdDCDF 1, .rsvdCmdE0FF 3] : List Instr).map
        (fun i => match exec i quiet with
          | .next t => some t.drf.fRsvdCmd.info
          | .fault _ => none
          | .refused _ => none) =
      ([0x3C8080, 0x3C8083, 0x3C8085, 0x3C8088, 0x3C808C, 0x3C808E, 0x3C8099, 0x3C80A0, 0x3C80A3, 0x3C80A5, 0x3C80A7,
        0x3C80A9, 0x3C80AB, 0x3C80AD, 0x3C80C0, 0x3C80C9, 0x3C80CB, 0x3C80CE, 0x3C80D1, 0x3C80D2, 0x3C80D4, 0x3C80D7,
        0x3C80D8, 0x3C80DD, 0x3C80E3] : List TxnWord).map some := by decide

/-- 95_test_vectors P5, its first eight transactions. -/
theorem test_stream_page_mode :
    let d := received [⟨0x3C, 0x80, 0x20⟩, ⟨0x3C, 0x80, 0x02⟩, ⟨0x3C, 0x80, 0x0E⟩, ⟨0x3C, 0x80, 0x17⟩, ⟨0x3C, 0x80, 0xB2⟩,
      ⟨0x3C, 0x40, 0xAA⟩, ⟨0x3C, 0x40, 0xBB⟩, ⟨0x3C, 0x40, 0xCC⟩] quiet.drf
    d.gddram = [(256, 0xCC), (382, 0xAA), (383, 0xBB)] ∧ d.col = 1 ∧ d.page = 2 := by decide

/-! ## Steps and reset -/

theorem test_first_step_runs_placed_bits :
    after (step (State.reset.withFetchWord 32 0x10000405)) (fun t => decide (t.fbc.seq = .initCfg 4 5)) = true ∧
    after (step (State.reset.withFetchWord 8 0xB3)) (fun t => t.drf.page == 3) = true ∧
    after (step (State.reset.withFetchWord 16 0x0220)) (fun t => decide (t.drf.addrMode = .page)) = true ∧
    after (step (State.reset.withFetchWord 24 0x3C80AF)) (fun t => t.drf.displayOn) = true ∧
    after (step (State.reset.withFetchWord 72 ((0x3C8008 * 2 ^ 23 + 0x3C8017) * 2 ^ 23 + 0x3C80B7)))
      (fun t => decide (t.fbc.trace = [.txn ⟨0x3C, 0x80, 0x08⟩] ∧ t.fbc.inFlight = true)) = true := by decide

theorem test_reset_ignores_arguments :
    after (step { at' (.power true) [.reset 64 32 { resetDraw with page := 9 }] with program := [0x30000000] })
      (fun t => decide (t.fbc.seq = .idle ∧ t.drf.page = 9 ∧ t.fbc.busStarted = false ∧ t.program = [0x30000000])) = true := by
  decide

theorem test_reset_memories_canonical : memoryOk State.reset = true := by
  have h := resetFramebuffer_wf
  simp only [memoryOk, State.reset, State.resetWith, h]
  decide

theorem test_panel_off_is_dark :
    lit { quiet.drf with gddram := [(0, 0xFF)] } 0 3 = false ∧
    lit { quiet.drf with gddram := [(0, 0x08)], displayOn := true } 0 3 = true := by decide

theorem test_code_numbers :
    fbcFaultCode .busNotStarted = 3 ∧ drfFaultCode .rsvdCmd = 4 ∧ drfFaultCode .ramRange = 9 ∧
    quiet.busy = false ∧ quiet.opReady = true ∧ quiet.modeFlagOut = 0 ∧ goodEnd quiet = true := by decide

/-! ## Witnesses: for every statement with hypotheses, something that meets them all together; where a statement has
several clauses, one for each, at a boundary value where the clause has a range -/

/-- The opcodes of two-byte commands and their neighbours. -/
theorem witness_DecodeEncodeRoundTrip :
    WellFormed (.txnReservedCtrl 0x3F 0xAE) = true ∧ WellFormed (.txnReservedCtrl 0x41 0xAE) = true ∧
    WellFormed (.txnReservedCtrl 0x7F 0xAE) = true ∧ WellFormed (.txnReservedCtrl 0x81 0xAE) = true ∧
    WellFormed (.txnOtherAddress 0x3B 0x80 0xAE) = true ∧ WellFormed (.txnOtherAddress 0x3D 0x80 0xAE) = true := by decide

theorem witness_EncodeDecodeWords :
    decode (.host 0x3FFFFFFF) = .ok (.display 0xFFFFFFF) ∧ decode (.send 0x3C4081) = .ok (.sendData 0x81) ∧
    decode (.bus 0x3C4081) = .ok (.txnData 0x81) ∧ decode (.command [0xDB, 0x40]) = .ok (.setVcomLevel 0x40) ∧
    decode (.cursor (0x3C8000#23 ++ 0x3C8010#23 ++ 0x3C80BF#23)) = .ok (.setCursorXY 0 15) := by decide

theorem witness_CommandLengthFromFirstByte :
    (0x20#8 ∈ [0x20#8, 0x81#8, 0x8D#8, 0xA8#8, 0xD3#8, 0xD5#8, 0xD9#8, 0xDA#8, 0xDB#8]) ∧
    (0xDC#8 ∉ [0x20#8, 0x81#8, 0x8D#8, 0xA8#8, 0xD3#8, 0xD5#8, 0xD9#8, 0xDA#8, 0xDB#8]) ∧
    (0x1F#8 ∉ [0x20#8, 0x81#8, 0x8D#8, 0xA8#8, 0xD3#8, 0xD5#8, 0xD9#8, 0xDA#8, 0xDB#8]) := by decide

/-- One input for each clause: a word, a transaction, one command, two commands, half a command, calls. -/
theorem witness_StepRunsDecodedInstruction :
    (noArrival (ready 0x30000000 [.done]) = true ∧ (ready 0x30000000 [.done]).fbc.seq = .idle ∧
      (ready 0x30000000 [.done]).calls = [] ∧ (ready 0x30000000 [.done]).program = [0x30000000]) ∧
    (at' .idle [.txn 0x3C80AF]).inputs = [.txn 0x3C80AF] ∧
    (decodeCommand [0xAE] = .ok (.displayOff, []) ∧ (at' .idle [.command [0xAE]]).inputs = [.command [0xAE]]) ∧
    (decodeCommand [0x20, 0x02, 0xAF] = .ok (.setAddrMode 0x02, [0xAF])) ∧
    (decodeCommand [0xDB] = .reject (.parameterMissing 0xDB)) ∧
    (decodeSend 0x3C80AF = .ok (.sendCommand 0xAF) ∧ decodeSend 0x3D80AF = .reject .notAPrimitive) ∧
    (decodeCursor (0x3C8008#23 ++ 0x3C8017#23 ++ 0x3C80B7#23) = .ok (.setCursorXY 15 7) ∧
      decodeCursor 0 = .reject .notAPrimitive) := by decide

/-- A call that is a primitive and one that is not, each as the next input. -/
theorem witness_calls_next :
    (at' .idle [.callSend 0x3C80AF]).inputs = [.callSend 0x3C80AF] ∧
    (match step (at' .idle [.callSend 0x3D80AF]) with
      | .next _ => false
      | .fault r => decide (r = .notAPrimitive)
      | .refused _ => false) = true := by decide

theorem witness_PlacedBitsRunNext :
    decodeTableWord 8 0x20 = some (.setAddrMode 0) ∧ decodeTableWord 16 0xFF81 = some (.setContrast 0xFF) ∧
    decodeTableWord 23 0x7FFFFF = some (.txnOtherAddress 0x7F 0xFF 0xFF) ∧
    decodeTableWord 32 0xFFFFFFFF = some (.hostReservedF 0xFFFFFFF) ∧
    decodeTableWord 69 ((0x3C8000 * 2 ^ 23 + 0x3C8010) * 2 ^ 23 + 0x3C80B0) = some (.setCursorXY 0 0) := by decide

theorem witness_BusyPortIgnoresWords :
    (at' (.power true) [.done]).fbc.seq ≠ .idle ∧ noArrival (at' (.power true) [.done]) = true ∧
    after (step (at' (.power true) [.done])) (fun t => decide (t.fbc.seq = .idle)) = true := by decide

/-- A legal word at the last coordinates and illegal ones next to them. -/
theorem witness_SetPixelWritesOneBit :
    quiet.fbc.seq = .idle ∧ Memory.wf quiet.fbc.fb = true ∧ (127#8).toNat ≤ 127 ∧ (63#8).toNat ≤ 63 ∧
    ¬ (128#8).toNat ≤ 127 ∧ ¬ (64#8).toNat ≤ 63 := by decide

theorem witness_PixelLaws :
    quiet.fbc.seq = .idle ∧ Memory.wf quiet.fbc.fb = true ∧ (127#8).toNat ≤ 127 ∧ (63#8).toNat ≤ 63 ∧
    (0#8).toNat ≤ 127 ∧ (62#8).toNat ≤ 63 ∧ (127#8, 62#8) ≠ (127#8, 63#8) := by decide

theorem witness_ClearDisplayZeroes : quiet.fbc.seq = .idle := by decide

theorem witness_BusOperationsAccepted : started.fbc.seq = .idle ∧ started.fbc.busStarted = true := by decide

theorem witness_BusOperationsBeforeInitRaise : quiet.fbc.seq = .idle ∧ quiet.fbc.busStarted = false := by decide

theorem witness_ReservedHostWordsRaise : quiet.fbc.seq = .idle := by decide

theorem witness_IgnoredBitsHaveNoEffect :
    started.fbc.busStarted = true ∧ (127#8).toNat ≤ 127 ∧ (63#8).toNat ≤ 63 := by decide

/-- A word of each kind the frame tells apart. -/
theorem witness_HostOperationsFrame :
    ([0x1000FFFF, 0x20000001, 0x30000000, 0x40000000, 0x50000000, 0x70000000, 0x90000000] : List OpWord).all
      (fun w => after (exec (decodeHost w) started) fun _ => true) = true ∧
    ((0x20000001 : OpWord).extractLsb' 28 4 = 2) ∧ (1#10).toNat ≠ (pixelIndex 0 0).toNat := by decide

/-- Both pins given (the boundary, zero), and one unset. -/
theorem witness_InitRuns :
    (presents (ready (0x1#4 ++ 0#12 ++ 0#8 ++ 0#8) (List.replicate 28 .done)) (0x1#4 ++ 0#12 ++ 0#8 ++ 0#8) [] ∧
      started.drf.pending = none ∧ 0 ≤ (0#8).toInt ∧
      (ready (0x1#4 ++ 0#12 ++ 0#8 ++ 0#8) (List.replicate 28 .done)).inputs =
        List.replicate (if 0 ≤ (0#8).toInt ∧ 0 ≤ (0#8).toInt then 28 else 27) .done ++ []) ∧
    (presents (ready (0x1#4 ++ 0#12 ++ 0#8 ++ 0xFF#8) (List.replicate 27 .done)) (0x1#4 ++ 0#12 ++ 0#8 ++ 0xFF#8) [] ∧
      ¬ 0 ≤ (0xFF#8).toInt ∧
      (ready (0x1#4 ++ 0#12 ++ 0#8 ++ 0xFF#8) (List.replicate 27 .done)).inputs =
        List.replicate (if 0 ≤ (0#8).toInt ∧ 0 ≤ (0xFF#8).toInt then 28 else 27) .done ++ []) := by
  refine ⟨⟨⟨rfl, rfl⟩, rfl, by decide, ?_⟩, ⟨⟨rfl, rfl⟩, by decide, ?_⟩⟩ <;> decide

/-- Every transaction of the flush lost, for stride 128; every one delivered, for stride 8. -/
theorem witness_DisplaySends :
    (∃ s prog answers rest, presents s (0x3#4 ++ 0#28) prog ∧ s.fbc.busStarted = true ∧
      (∀ x ∈ answers, x = .done ∨ x = .lost) ∧ answers.length = flushCount s.stride ∧ s.inputs = answers ++ rest ∧
      s.stride = .every128) ∧
    (∃ s prog answers rest, presents s (0x3#4 ++ 0#28) prog ∧ s.fbc.busStarted = true ∧
      (∀ x ∈ answers, x = .done ∨ x = .lost) ∧ answers.length = flushCount s.stride ∧ s.inputs = answers ++ rest ∧
      s.stride = .every8) :=
  ⟨⟨ready (0x3#4 ++ 0#28) (List.replicate 1048 .lost ++ []), [], List.replicate 1048 .lost, [], ⟨rfl, rfl⟩, rfl,
      fun _ h => .inr (List.eq_of_mem_replicate h), List.length_replicate, rfl, rfl⟩,
    ⟨{ ready (0x3#4 ++ 0#28) (List.replicate 1408 .done ++ []) with stride := .every8 }, [], List.replicate 1408 .done, [],
      ⟨rfl, rfl⟩, rfl, fun _ h => .inl (List.eq_of_mem_replicate h), List.length_replicate, rfl, rfl⟩⟩

/-- A DISPLAY to be delivered whole, for each stride and each mode. -/
theorem witness_DisplayMirrorsFramebuffer (st : Stride) (m : Mode) :
    let s := { ready (0x3#4 ++ 0#28) (List.replicate (flushCount st) .done ++ []) with
      stride := st, drf := { quiet.drf with addrMode := m } }
    presents s (0x3#4 ++ 0#28) [] ∧ s.fbc.busStarted = true ∧ memoryOk s = true ∧ s.drf.pending = none ∧
      s.inputs = List.replicate (flushCount s.stride) .done ++ [] :=
  ⟨⟨rfl, rfl⟩, rfl, rfl, rfl, rfl⟩

/-- The latches as INIT leaves them, on a panel that is on. -/
def initialised : Drf :=
  received ((initVector.map commandTxn)) quiet.drf

theorem witness_PanelShowsFramebuffer :
    let s := { ready (0x3#4 ++ 0#28) (List.replicate 1048 .done ++ []) with drf := initialised }
    presents s (0x3#4 ++ 0#28) [] ∧ s.fbc.busStarted = true ∧ memoryOk s = true ∧ s.drf.pending = none ∧
      s.drf.displayOn = true ∧ initLatches s.drf = true ∧
      s.inputs = List.replicate (flushCount s.stride) .done ++ [] :=
  ⟨⟨rfl, rfl⟩, rfl, by decide, by decide, by decide, by decide, rfl⟩

/-- Each mode: faulting, delivered, hanging at the opcode, hanging at the selector. -/
theorem witness_ModeOperationsRun :
    (∀ xs : List Input, presents (ready (0x5#4 ++ 0#28) xs) (0x5#4 ++ 0#28) [] ∧
      presents (ready (0x6#4 ++ 0#28) xs) (0x6#4 ++ 0#28) []) ∧
    (∀ w, presents { quiet with program := [w] } w [] ∧ ({ quiet with program := [w] } : State).fbc.busStarted = false ∧
      noArrival { quiet with program := [w] } = true) ∧
    noArrival (ready 0 [.done, .done]) = true ∧ noArrival (ready 0 []) = true ∧ noArrival (ready 0 [.done]) = true ∧
    started.fbc.busStarted = true ∧ started.drf.pending = none :=
  ⟨fun _ => ⟨⟨rfl, rfl⟩, ⟨rfl, rfl⟩⟩, fun _ => ⟨⟨rfl, rfl⟩, rfl, rfl⟩, rfl, rfl, rfl, rfl, rfl⟩

/-- Each operation delivered, and each before INIT. -/
theorem witness_PowerOperationsRun :
    (presents (ready (0x7#4 ++ 0#28) [.done]) (0x7#4 ++ 0#28) [] ∧ noArrival (ready (0x7#4 ++ 0#28) [.done]) = true ∧
      started.fbc.busStarted = true ∧ (ready (0x7#4 ++ 0#28) [.done]).inputs = [.done] ∧ started.drf.pending = none) ∧
    (presents (ready (0x8#4 ++ 0#28) [.done]) (0x8#4 ++ 0#28) [] ∧ noArrival (ready (0x8#4 ++ 0#28) [.done]) = true) ∧
    (∀ w, presents { quiet with program := [w] } w [] ∧ noArrival { quiet with program := [w] } = true) ∧
    after (step { quiet with program := [0x70000000] })
      (fun t => decide (t.fbc.fBusNotStarted = ⟨true, 0x70000000⟩)) = true ∧
    after (step { quiet with program := [0x80000000] })
      (fun t => decide (t.fbc.fBusNotStarted = ⟨true, 0x80000000⟩)) = true :=
  ⟨⟨⟨rfl, rfl⟩, rfl, rfl, rfl, rfl⟩, ⟨⟨rfl, rfl⟩, rfl⟩, fun _ => ⟨⟨rfl, rfl⟩, rfl⟩, by decide, by decide⟩

/-- Each row of the table, the data row at index 1022 and at the last index. -/
theorem witness_FlushStepTable :
    ([.curLo, .curHi, .curPg, .data] : List Phase).all
      (fun ph => decide ((at' (.flush ph) [.done]).fbc.inFlight = false ∧ (at' (.flush ph) [.done]).inputs = [.done] ∧
        (at' (.flush ph) [.done]).fbc.seq = .flush ph)) = true ∧
    (1022#10).toNat < 1023 ∧ (1023#10).toNat = 1023 := by decide

theorem witness_RepositionGroupIsSetCursor :
    (896 < 1024 ∧ 896 % strideColumns .every128 = 0) ∧ (1016 < 1024 ∧ 1016 % strideColumns .every8 = 0) ∧
    atRest started = true ∧
    ({ started with inputs := [.done, .done, .done] } : State).inputs = [.done, .done, .done] := by decide

/-- Each answer of the transport, an arrival instead of one, none, and an answer after a wait. -/
theorem witness_PrimitivesSend :
    ([[.done], [.lost], [.wait], [.wait, .done], [.txn 0], []] : List (List Input)).all
      (fun xs => atRest (at' .idle xs) && decide ((at' .idle xs).inputs = xs)) = true ∧
    noArrival (at' .idle [.txn 0]) = false := by decide

/-- A call met by a busy sequencer with its event in flight, one met by another call in progress, and a step in which that
one goes on. -/
theorem witness_PrimitivesWaitForTheirTurn :
    let busy : State := { at' (.power true) [.wait] with
      fbc := { (at' (.power true) []).fbc with trace := [.txn ⟨0x3C, 0x80, 0xAF⟩], inFlight := true } }
    let called : State := { at' .idle [.done] with
      fbc := { started.fbc with trace := [.txn ⟨0x3C, 0x80, 0xAF⟩], inFlight := true }
      calls := [.txn ⟨0x3C, 0x80, 0xAF⟩, .txn ⟨0x3C, 0x40, 0x81⟩] }
    (busy.fbc.seq ≠ .idle ∧ inFlightOk busy = true) ∧
    (called.fbc.seq = .idle ∧ inFlightOk called = true ∧ called.calls ≠ [] ∧ noArrival called = true) ∧
    after (exec (.setCursorXY 15 7) called) (fun t => decide (t.calls.length = 4 ∧ t.fbc.inFlight = true)) = true ∧
    after (step called) (fun t => decide (t.calls = [.txn ⟨0x3C, 0x40, 0x81⟩])) = true := by decide

/-- The transactions completed at once, the first after a wait, the last two after waits; the cursor there already. -/
theorem witness_SetCursorPositions :
    ([[.done, .done, .done], [.wait, .done, .done, .done], [.done, .wait, .done, .wait, .wait, .done]] :
      List (List Input)).all (fun xs => atRest (at' .idle xs)) = true ∧
    ([.wait, .done, .done, .done] : List Input) =
      List.replicate 1 .wait ++ .done :: (List.replicate 0 .wait ++ .done :: (List.replicate 0 .wait ++ .done :: [])) ∧
    ({ quiet.drf with col := 120, page := 15 } : Drf).pending = none ∧ (120#7).toNat = 8 * (15#4).toNat := by decide

/-- A transport that completes `n` transactions meets the premise for `n`. -/
theorem busProgress_replicate (n : Nat) (s : State) (h : s.inputs = List.replicate n .done) :
    busProgress n s = true := by
  have hc : ∀ n, ((List.replicate n Input.done).takeWhile Input.isAnswer).countP Input.completes = n := by
    intro n
    induction n with
    | zero => rfl
    | succ n ih => rw [List.replicate_succ, List.takeWhile_cons_of_pos rfl, List.countP_cons_of_pos rfl, ih]
  rw [busProgress, h, hc]
  exact decide_eq_true (Nat.le_refl n)

/-- The longest operation at its first position, and the premise for it. -/
theorem witness_OperationsEnd :
    let s := { at' (.flush .curLo) (List.replicate 1408 .done) with stride := .every8 }
    s.fbc.seq ≠ .idle ∧ busProgress 1408 s = true :=
  ⟨nofun, busProgress_replicate 1408 _ rfl⟩

theorem witness_PrimitivesFrame :
    atRest (at' .idle [.done, .lost]) = true ∧ (at' (.power true) []).fbc.seq ≠ .idle ∧
    ([.sendCommand 0x81, .sendData 0x81, .setCursorXY 15 7] : List Instr).all
      (fun i => after (exec i (at' .idle [.done, .lost])) fun _ => true) = true ∧
    1023 ≠ (cursorAddr started.drf).toNat := by decide

theorem witness_OtherAddressAndReservedControl :
    (0x3D#7 ≠ 0x3C#7 ∧ 0x3B#7 ≠ 0x3C#7) ∧ (0x81#8 ≠ 0x80#8 ∧ 0x41#8 ≠ 0x40#8 ∧ 0x7F#8 ≠ 0x80#8 ∧ 0x3F#8 ≠ 0x40#8) := by
  decide

theorem witness_CommandIsItsTransactions :
    decode (.command [0xAF]) = .ok .displayOn ∧ decode (.command [0x20, 0x02]) = .ok (.setAddrMode 0x02) := by decide

/-- Each case of a data byte: pending, page 8, page 7 at column 126 and at column 127 in both modes. -/
theorem witness_DataByteReceived :
    Memory.wf quiet.drf.gddram = true ∧ (some ParamOp.addrMode : Option ParamOp) ≠ none ∧ 7 < (8#4).toNat ∧
    ¬ 7 < (7#4).toNat ∧ (126#7).toNat < 127 ∧ (127#7).toNat = 127 := by decide

theorem witness_PageModeColumnWraps :
    let d := { quiet.drf with addrMode := .page, col := 127, page := 7 }
    d.pending = none ∧ d.page.toNat ≤ 7 ∧ d.addrMode = .page ∧ d.col.toNat = 127 := by decide

/-- Nothing pending: the premise of CursorCommands, OneByteCommands and ReservedCommandBytesRaise. -/
theorem witness_nothing_pending : quiet.drf.pending = none := by decide

/-- Each pending opcode: the premises of ParameterCommands, AddressingModeSelector and PendingByteIsNoOpcode. -/
theorem witness_parameter_pending (op : ParamOp) : (withDrf fun d => { d with pending := some op }).drf.pending = some op :=
  rfl

/-- A transaction of each kind, a command, and an address beside the one under the cursor. -/
theorem witness_DrfInstructionsFrame :
    (decodeTxn 0x3C4081 = .txnData 0x81 ∧ after (exec (decodeTxn 0x3C4081) quiet) (fun _ => true) = true) ∧
    (decodeCommand [0x20, 0x02] = .ok (.setAddrMode 0x02, []) ∧
      after (exec (.setAddrMode 0x02) quiet) (fun _ => true) = true) ∧
    1 ≠ (cursorAddr quiet.drf).toNat ∧ quiet.drf.pending = none := by decide

theorem witness_ResetValues : Memory.wf resetDraw.gddram = true ∧ Memory.wf [(1023, 1)] = true := by decide

theorem witness_ResetAtAnyTime :
    (at' (.mode .page 1) [.reset 64 32 resetDraw]).inputs = [.reset 64 32 resetDraw] := by decide

/-- With nothing to come, and with an answer that no event asks for. -/
theorem witness_IdleBlockIsQuiet :
    ([[], [.done], [.wait]] : List (List Input)).all
      (fun xs => noArrival (at' .idle xs) && decide ((at' .idle xs).fbc.seq = .idle ∧ (at' .idle xs).program = [] ∧
        (at' .idle xs).calls = [])) = true := by decide

theorem witness_StepKeepsMemoryCanonical :
    memoryOk { quiet with fbc := { quiet.fbc with fb := [(0, 1), (1023, 2)] } } = true ∧
    after (step { quiet with program := [0x207F3F01] }) (fun t => memoryOk t) = true := by decide

theorem witness_StepKeepsSequencer :
    sequencerOk (at' (.flush .curLo) [.done]) = true ∧ sequencerOk (at' (.initSend 25) [.done]) = true ∧
    sequencerOk (at' (.initSend 26) [.done]) = false ∧
    after (step (at' (.initSend 25) [.done])) (fun t => sequencerOk t) = true ∧
    inFlightOk (at' (.flush .curLo) [.wait]) = true ∧
    after (step (at' (.flush .curLo) [.wait])) (fun t => t.fbc.inFlight && inFlightOk t) = true := by decide

theorem witness_StepKeepsModeFlag :
    let s : State := { at' (.mode .page 1) [.done] with
      fbc := { (at' (.mode .page 1) []).fbc with trace := [.txn ⟨0x3C, 0x80, 0x20⟩] } }
    noCalls s = true ∧ modeOk s = true ∧ after (step s) (fun t => modeOk t) = true := by decide

theorem witness_StepKeepsDrfInStep :
    let s : State := { at' (.mode .page 1) [.done] with
      fbc := { (at' (.mode .page 1) []).fbc with trace := [.txn ⟨0x3C, 0x80, 0x20⟩] }
      drf := { quiet.drf with pending := some .addrMode } }
    busOk s = true ∧ noTraffic s = true ∧ noCalls s = true ∧ inStep s = true ∧ after (step s) (fun t => inStep t) = true := by decide

/-- A step of the sequencer, a bench's call and a reset. -/
theorem witness_StepKeepsDrfFold :
    ([.done, .callSend 0x3C80AF, .reset 128 64 resetDraw] : List Input).all
      (fun x => busOk (at' (.power true) [x]) && noTraffic (at' (.power true) [x]) &&
        after (step (at' (.power true) [x])) fun _ => true) = true ∧
    (∀ xs, drfIsFold quiet.drf (at' (.power true) xs)) ∧ noReset (at' (.power true) [.done]) = true ∧
    noReset (at' (.power true) [.reset 128 64 resetDraw]) = false :=
  ⟨by decide, fun _ => ⟨rfl, rfl⟩, by decide, by decide⟩

/-- Two runs that differ in delivery and in DRF. -/
theorem witness_FbcBlindToDrf :
    let s := at' (.power true) [.done]
    let t := { at' (.power true) [.lost] with drf := { quiet.drf with page := 9 } }
    s.fbc = t.fbc ∧ s.stride = t.stride ∧ s.program = t.program ∧ s.calls = t.calls ∧ s.freeCount = t.freeCount ∧
      s.inputs.map forgetDelivery = t.inputs.map forgetDelivery ∧ after (steps 1 s) (fun _ => true) = true := by
  refine ⟨rfl, rfl, rfl, rfl, rfl, rfl, ?_⟩
  decide

theorem witness_FaultFlagsAreSticky :
    noReset (at' .idle []) = true ∧ after (step (at' .idle [])) (fun _ => true) = true ∧
    (fbcFlag .coordRange { quiet.fbc with fCoord := ⟨true, 7⟩ }).flag = true ∧
    (drfFlag .proto { quiet.drf with fProto := ⟨true, 7⟩ }).flag = true := by decide

theorem witness_RaisingLatchesFirst :
    (fbcFlag .badOp quiet.fbc).flag = false ∧ (fbcFlag .badOp { quiet.fbc with fBadop := ⟨true, 7⟩ }).flag = true ∧
    (drfFlag .proto quiet.drf).flag = false ∧
    (drfFlag .proto { quiet.drf with fProto := ⟨true, 7⟩ }).flag = true := by decide

theorem witness_AtMostOneFault :
    after (exec (decodeHost 0x90000000) quiet) (fun t => decide (fbcFlag .badOp t.fbc ≠ fbcFlag .badOp quiet.fbc)) = true ∧
    after (exec (decodeTxn 0x3C80FF) quiet) (fun t => decide (drfFlag .rsvdCmd t.drf ≠ drfFlag .rsvdCmd quiet.drf)) = true := by
  decide

theorem witness_StepsNeverStop :
    noNewCalls (at' .idle [.txn 0x3C80FF]) = true ∧ (at' .idle [.txn 0x3C80FF]).fbc.noFault = true := by decide

theorem witness_HungTransactionHolds :
    (seqEvent (at' (.power true) [.wait, .wait]).fbc).isSome = true ∧
    (∀ x ∈ (at' (.power true) [.wait, .wait]).inputs, x = .wait) := by decide

theorem witness_TraceOnlyGrows :
    noReset (at' (.power true) [.done]) = true ∧ noArrival (at' (.power true) [.done]) = true ∧
    after (step (at' (.power true) [.done])) (fun t => decide (t.fbc.trace.length = 1)) = true := by decide

theorem witness_ModeFlagWriters :
    (noReset (at' (.mode .page 1) [.done]) = true ∧
      after (step (at' (.mode .page 1) [.done])) (fun t => decide (t.fbc.modeFlag ≠ .horizontal)) = true) ∧
    after (step { at' (.initSend 11) [.done] with fbc := { (at' (.initSend 11) []).fbc with modeFlag := .page } })
      (fun t => decide (t.fbc.modeFlag ≠ .page)) = true := by decide

theorem witness_FramebufferWriters :
    noReset { quiet with program := [0x20000001] } = true ∧
    after (step { quiet with program := [0x20000001] }) (fun t => decide (t.fbc.fb ≠ [])) = true := by decide

theorem witness_DisplayRamWriters :
    noArrival (at' (.flush .curPg) [.done]) = true ∧ (at' .idle [.done]).calls = [] ∧
    (at' (.flush .curPg) [.done]).fbc.seq ≠ .flush .data ∧
    after (step (at' (.flush .curPg) [.done])) (fun _ => true) = true := by decide

theorem witness_LostSelectorSwallowsPowerOn :
    let s := { started with program := [0x50000000, 0x70000000], inputs := [.done, .lost, .done] }
    presents s 0x50000000 [0x70000000] ∧ s.fbc.busStarted = true ∧ s.drf.pending = none ∧
      s.inputs = .done :: .lost :: .done :: [] :=
  ⟨⟨rfl, rfl⟩, rfl, rfl, rfl⟩

end Sys2Proof.Tests
end

section
/-! # FBC depends neither on DRF nor on delivery (00_scope R9, 10_state R40, 20_memory R73)

The idea: `fbcView` erases from a state what FBC cannot see, and each operation, run on the erased state, ends in the same
erased state as the operation run on the state itself.  Two runs from states of equal view then keep equal views. -/

namespace Sys2Proof.Machine

/-! ## What FBC sees of a state, of a fetch and of a result -/

/-- A state as FBC sees it: DRF replaced by a fixed one, and no difference between a delivered and a lost transaction. -/
def fbcView (s : State) : State := { s with drf := State.reset.drf, inputs := s.inputs.map forgetDelivery }

/-- A fetch as FBC sees it. -/
def fbcFetch : Fetch → Fetch
  | .run i s => .run i (fbcView s)
  | .move s => .move (fbcView s)
  | .bad r => .bad r

/-- A result as FBC sees it. -/
def fbcResult : Result → Result
  | .next s => .next (fbcView s)
  | .fault r => .fault r
  | .refused r => .refused r

@[simp] theorem fbcView_fbc (s : State) : (fbcView s).fbc = s.fbc := rfl
@[simp] theorem fbcView_calls (s : State) : (fbcView s).calls = s.calls := rfl
@[simp] theorem fbcResult_next (s : State) : fbcResult (.next s) = .next (fbcView s) := rfl

@[simp] theorem forgetDelivery_idem (x : Input) : forgetDelivery (forgetDelivery x) = forgetDelivery x := by
  cases x <;> rfl

@[simp] theorem fbcView_idem (s : State) : fbcView (fbcView s) = fbcView s := by
  simp [fbcView, Function.comp_def]

@[simp] theorem fbcFetch_idem (f : Fetch) : fbcFetch (fbcFetch f) = fbcFetch f := by
  cases f <;> simp [fbcFetch]

/-- Two states look alike to FBC when they differ in DRF and in delivery only. -/
theorem fbcView_eq_iff {s t : State} :
    fbcView s = fbcView t ↔
      s.fbc = t.fbc ∧ s.stride = t.stride ∧ s.program = t.program ∧ s.calls = t.calls ∧
        s.inputs.map forgetDelivery = t.inputs.map forgetDelivery ∧ s.freeCount = t.freeCount := by
  simp [fbcView]

/-! ## The transport and a bench's calls -/

/-- FBC cannot tell a delivered transaction from a lost one (20_memory R73). -/
theorem settle_blind (e : Event) (s : State) :
    fbcView (settle e (fbcView s)).1 = fbcView (settle e s).1 ∧ (settle e (fbcView s)).2 = (settle e s).2 := by
  have unanswered := fbcView_idem s
  obtain ⟨fbc, drf, stride, program, calls, inputs, freeCount⟩ := s
  cases inputs with
  | nil => exact ⟨unanswered, rfl⟩
  | cons x rest =>
    cases x with
    | done | lost =>
      exact ⟨fbcView_idem ⟨{ fbc with inFlight := false }, drf, stride, program, calls, rest, freeCount⟩, rfl⟩
    | wait => exact ⟨fbcView_idem ⟨fbc, drf, stride, program, calls, rest, freeCount⟩, rfl⟩
    | reset | txn | command | callSend | callCursor => exact ⟨unanswered, rfl⟩

theorem transact_blind (e : Event) (s : State) :
    fbcView (transact e (fbcView s)).1 = fbcView (transact e s).1 ∧
      (transact e (fbcView s)).2 = (transact e s).2 := by
  cases h : s.fbc.inFlight with
  | true => rw [transact_held h, transact_held (by exact h)]; exact settle_blind e s
  | false => rw [transact_free h, transact_free (by exact h)]; exact settle_blind e (launch e s)

/-- What remains of the calls is FBC's own business: setting it keeps two views equal. -/
theorem fbcView_setCalls {s t : State} (h : fbcView s = fbcView t) (cs : List Event) :
    fbcView { s with calls := cs } = fbcView { t with calls := cs } :=
  congrArg (fun u : State => { u with calls := cs }) h

theorem callStep_blind (s : State) :
    fbcView (callStep (fbcView s)).1 = fbcView (callStep s).1 ∧ (callStep (fbcView s)).2 = (callStep s).2 := by
  unfold callStep
  rw [fbcView_calls]
  cases s.calls with
  | nil => exact ⟨fbcView_idem s, rfl⟩
  | cons e rest =>
    obtain ⟨hview, hflag⟩ := transact_blind e s
    simp only [hflag]
    split
    · exact ⟨fbcView_setCalls hview rest, rfl⟩
    · exact ⟨hview, rfl⟩

theorem callSteps_blind (n : Nat) (s : State) : fbcView (callSteps n (fbcView s)) = fbcView (callSteps n s) := by
  induction n generalizing s with
  | zero => exact fbcView_idem s
  | succ n ih =>
    obtain ⟨hview, hflag⟩ := callStep_blind s
    simp only [callSteps, hflag]
    split
    · rw [← ih, hview, ih]
    · exact hview

theorem callPrimitive_blind (es : List Event) (s : State) :
    fbcResult (callPrimitive es (fbcView s)) = fbcResult (callPrimitive es s) := by
  by_cases h : s.fbc.seq = .idle
  · rw [callPrimitive_idle h, callPrimitive_idle (by exact h)]
    exact congrArg Host.Outcome.next (callSteps_blind _ { s with calls := s.calls ++ es })
  · rw [callPrimitive_busy h, callPrimitive_busy (by exact h)]
    exact congrArg Host.Outcome.next (fbcView_idem { s with calls := s.calls ++ es })

/-! ## The sequencer -/

theorem flushNext_fbcView (s : State) : flushNext (fbcView s) = fbcView (flushNext s) := by
  by_cases h : s.fbc.idx = 1023
  · have hv : (fbcView s).fbc.idx = 1023 := h
    simp only [flushNext, if_pos h, if_pos hv]; rfl
  · have hv : (fbcView s).fbc.idx ≠ 1023 := h
    simp only [flushNext, if_neg h, if_neg hv]; rfl

/-- Where the sequencer goes is decided by FBC alone. -/
theorem seqAdvance_fbcView (s : State) : seqAdvance (fbcView s) = fbcView (seqAdvance s) := by
  unfold seqAdvance
  rw [fbcView_fbc]
  cases s.fbc.seq with
  | idle | initCfg | initStart | initSend | power => rfl
  | mode t k => dsimp only; split <;> rfl
  | flush ph =>
    cases ph with
    | curLo | curHi | curPg => rfl
    | data => exact flushNext_fbcView s

theorem sequencerStep_blind (s : State) :
    fbcView (sequencerStep (fbcView s)) = fbcView (sequencerStep s) := by
  have hadv {u v : State} (h : fbcView u = fbcView v) : fbcView (seqAdvance u) = fbcView (seqAdvance v) := by
    rw [← seqAdvance_fbcView, h, seqAdvance_fbcView]
  have hprep : { fbcView s with fbc := seqPrepare s.fbc } = fbcView { s with fbc := seqPrepare s.fbc } := rfl
  simp only [sequencerStep, fbcView_fbc, hprep]
  cases seqEvent (seqPrepare s.fbc) with
  | none => exact hadv (fbcView_idem _)
  | some e =>
    obtain ⟨hview, hflag⟩ := transact_blind e { s with fbc := seqPrepare s.fbc }
    simp only [hflag]
    split
    · exact hadv hview
    · exact hview

/-! ## Instructions -/

/-- What changes DRF alone changes nothing FBC sees. -/
theorem fbcResult_drfNext (f : Drf → Drf) (s : State) : fbcResult (drfNext f s) = .next (fbcView s) := rfl

theorem drfNext_blind (f : Drf → Drf) (s : State) : fbcResult (drfNext f (fbcView s)) = fbcResult (drfNext f s) := by
  rw [fbcResult_drfNext, fbcResult_drfNext, fbcView_idem]

theorem accept_blind (s t : State) : fbcResult (accept (fbcView s) (fbcView t)) = fbcResult (accept s t) := by
  by_cases h : s.fbc.seq = .idle
  · rw [accept_idle h, accept_idle (by exact h)]; simp
  · rw [accept_busy h, accept_busy (by exact h)]; simp

theorem raiseFbc_fbcView (k : FbcFault) (w : OpWord) (s : State) :
    raiseFbc k w (fbcView s) = fbcView (raiseFbc k w s) := by
  cases k <;> rfl

theorem acceptBus_blind (w : OpWord) (s t : State) :
    fbcResult (acceptBus w (fbcView s) (fbcView t)) = fbcResult (acceptBus w s t) := by
  simp only [acceptBus, raiseFbc_fbcView, fbcView_fbc, ← apply_ite fbcView]
  exact accept_blind s _

theorem setPixel_blind (ign : BitVec 4) (x y color : Byte) (s : State) :
    fbcResult (execSetPixel ign x y color (fbcView s)) = fbcResult (execSetPixel ign x y color s) := by
  unfold execSetPixel
  split
  · exact accept_blind s { s with fbc := { s.fbc with fb := plotPixel x y color s.fbc.fb } }
  · rw [raiseFbc_fbcView]; exact accept_blind s _

theorem reservedHost_blind (opc : BitVec 4) (ign : BitVec 28) (s : State) :
    fbcResult (reservedHost opc ign (fbcView s)) = fbcResult (reservedHost opc ign s) :=
  accept_blind s (raiseFbc .badOp (hostWord opc ign) s)

/-- No instruction makes FBC depend on DRF or on delivery: an operation word acts on FBC alone, a primitive emits without
reading DRF, and everything DRF receives acts on DRF alone. -/
theorem exec_blind (i : Instr) (s : State) : fbcResult (exec i (fbcView s)) = fbcResult (exec i s) := by
  cases i with
  | init _ sda scl => exact accept_blind s (enter (.initCfg sda scl) s)
  | setPixel ign x y color => exact setPixel_blind ign x y color s
  | display => exact acceptBus_blind _ s { s with fbc := { s.fbc with idx := 0, seq := .flush .curLo } }
  | clearDisplay => exact accept_blind s { s with fbc := { s.fbc with fb := clearedMemory } }
  | setPageMode => exact acceptBus_blind _ s (enter (.mode .page 0) s)
  | setHorizontalMode => exact acceptBus_blind _ s (enter (.mode .horizontal 0) s)
  | setPowerOn => exact acceptBus_blind _ s (enter (.power true) s)
  | setPowerOff => exact acceptBus_blind _ s (enter (.power false) s)
  | hostReserved0 | hostReserved9 | hostReservedA | hostReservedB | hostReservedC | hostReservedD | hostReservedE
  | hostReservedF => exact reservedHost_blind _ _ s
  | sendCommand | sendData | setCursorXY => exact callPrimitive_blind _ s
  | txnOtherAddress => exact drfNext_blind (fun d => d) s
  | _ => exact drfNext_blind _ s

/-! ## Steps -/

theorem fetchCommand_fbcView (bytes : List Byte) (s : State) :
    fetchCommand bytes (fbcView s) = fbcFetch (fetchCommand bytes s) := by
  unfold fetchCommand
  split <;> rfl

theorem fetchCall_fbcView (r : Decoded Instr) (s : State) : fetchCall r (fbcView s) = fbcFetch (fetchCall r s) := by
  cases r <;> rfl

theorem fetchOwn_blind (s : State) : fbcFetch (fetchOwn (fbcView s)) = fbcFetch (fetchOwn s) := by
  by_cases h : s.fbc.seq = .idle
  · have hv : (fbcView s).fbc.seq = .idle := h
    simp only [fetchOwn, if_pos h, if_pos hv]
    obtain ⟨fbc, drf, stride, program, calls, inputs, freeCount⟩ := s
    cases calls with
    | cons e rest => exact congrArg Fetch.move (callStep_blind _).1
    | nil =>
      cases program with
      | cons w rest =>
        exact congrArg (Fetch.run (decodeHost w)) (fbcView_idem ⟨fbc, drf, stride, rest, [], inputs, freeCount⟩)
      | nil => exact congrArg Fetch.move (fbcView_idem _)
  · have hv : (fbcView s).fbc.seq ≠ .idle := h
    simp only [fetchOwn, if_neg h, if_neg hv]
    exact congrArg Fetch.move (sequencerStep_blind s)

theorem fetch_blind (s : State) : fbcFetch (fetch (fbcView s)) = fbcFetch (fetch s) := by
  have own := fetchOwn_blind s
  obtain ⟨fbc, drf, stride, program, calls, inputs, freeCount⟩ := s
  cases inputs with
  | nil => exact own
  | cons x rest =>
    let after : State := ⟨fbc, drf, stride, program, calls, rest, freeCount⟩
    cases x with
    | done | lost | wait => exact own
    | reset width height draw => exact congrArg Fetch.move (fbcView_idem (construct width height draw after))
    | txn t => exact congrArg (Fetch.run (decodeTxn t)) (fbcView_idem after)
    | command bytes => exact (congrArg fbcFetch (fetchCommand_fbcView bytes after)).trans (fbcFetch_idem _)
    | callSend t => exact (congrArg fbcFetch (fetchCall_fbcView (decodeSend t) after)).trans (fbcFetch_idem _)
    | callCursor t => exact (congrArg fbcFetch (fetchCall_fbcView (decodeCursor t) after)).trans (fbcFetch_idem _)

/-- What a step does with what it fetched. -/
def runFetch : Fetch → Result
  | .run i s => exec i s
  | .move s => .next s
  | .bad r => .fault r

theorem step_eq_runFetch (s : State) : step s = runFetch (fetch s) := by
  unfold step runFetch
  cases fetch s <;> rfl

theorem runFetch_blind (f : Fetch) : fbcResult (runFetch (fbcFetch f)) = fbcResult (runFetch f) := by
  cases f with
  | run i s => exact exec_blind i s
  | move s => exact congrArg Host.Outcome.next (fbcView_idem s)
  | bad r => rfl

theorem step_blind (s : State) : fbcResult (step (fbcView s)) = fbcResult (step s) := by
  rw [step_eq_runFetch, step_eq_runFetch, ← runFetch_blind, fetch_blind, runFetch_blind]

/-- A result that looks to FBC like a next state is one. -/
theorem fbcResult_eq_next {r : Result} {u : State} (h : fbcResult r = .next (fbcView u)) :
    ∃ v, r = .next v ∧ fbcView u = fbcView v := by
  cases r with
  | next v => exact ⟨v, rfl, (Host.Outcome.next.inj h).symm⟩
  | fault _ => cases h
  | refused _ => cases h

/-- A step keeps two views equal. -/
theorem step_keeps_fbcView {s t u : State} (h : fbcView s = fbcView t) (hs : step s = .next u) :
    ∃ v, step t = .next v ∧ fbcView u = fbcView v :=
  fbcResult_eq_next (by rw [← step_blind, ← h, step_blind, hs, fbcResult_next])

/-- A run of `n + 1` steps that does not stop begins with a step that does not. -/
theorem steps_succ_eq_next {n : Nat} {s u : State} (h : steps (n + 1) s = .next u) :
    ∃ s', step s = .next s' ∧ steps n s' = .next u := by
  cases hs : step s with
  | next s' => exact ⟨s', rfl, by rwa [steps_succ hs] at h⟩
  | fault r => simp [steps, hs] at h
  | refused r => simp [steps, hs] at h

/-- A run keeps two views equal, however long it is. -/
theorem steps_keep_fbcView {n : Nat} {s t u : State} (h : fbcView s = fbcView t) (hs : steps n s = .next u) :
    ∃ v, steps n t = .next v ∧ fbcView u = fbcView v := by
  induction n generalizing s t with
  | zero => exact ⟨t, rfl, Host.Outcome.next.inj hs ▸ h⟩
  | succ n ih =>
    obtain ⟨s', hstep, hrun⟩ := steps_succ_eq_next hs
    obtain ⟨t', htstep, h'⟩ := step_keeps_fbcView h hstep
    rw [steps_succ htstep]
    exact ih h' hrun

/-- Settles O50: the two runs start from states of equal view, and a run of any length keeps the views equal. -/
theorem fbcBlindToDrf : Obligations.FbcBlindToDrf := by
  unfold Obligations.FbcBlindToDrf
  intro n s t u hfbc hstride hprogram hcalls hfree hinputs hrun
  have hview : fbcView s = fbcView t := fbcView_eq_iff.mpr ⟨hfbc, hstride, hprogram, hcalls, hinputs, hfree⟩
  obtain ⟨v, hv, huv⟩ := steps_keep_fbcView hview hrun
  obtain ⟨hfbc', -, hprogram', hcalls', hinputs', -⟩ := fbcView_eq_iff.mp huv
  exact ⟨v, hv, hfbc', hprogram', hcalls', hinputs'⟩

end Sys2Proof.Machine
end

section
/-! # What a step can do (log 7)

`HostStep` says once what an operation word can do and `StepCase` what a step can do; each invariant below is a case
analysis over them. -/

namespace Sys2Proof.Machine

/-! ## An operation word -/

/-- The opcodes of the words that can raise a fault of FBC (60_exceptions R271). -/
def canRaise : FbcFault → BitVec 4 → Prop
  | .coordRange, opc => opc = 2
  | .badOp, opc => opc = 0 ∨ 8 < opc
  | .busNotStarted, opc => opc = 3 ∨ 5 ≤ opc ∧ opc ≤ 8

/-- What an operation word makes of the state (30_encoding R91 to R95). -/
inductive HostStep (w : OpWord) (s : State) : State → Prop
  | ignored (busy : s.fbc.seq ≠ .idle) : HostStep w s s
  | init (sda scl : Byte) (opc : w.extractLsb' 28 4 = 1) : HostStep w s (enter (.initCfg sda scl) s)
  | pixel (color : Byte) (opc : w.extractLsb' 28 4 = 2) :
      HostStep w s
        { s with fbc := { s.fbc with fb := plotPixel (w.extractLsb' 16 8) (w.extractLsb' 8 8) color s.fbc.fb } }
  | display (opc : w.extractLsb' 28 4 = 3) (started : s.fbc.busStarted = true) :
      HostStep w s { s with fbc := { s.fbc with idx := 0, seq := .flush .curLo } }
  | clear (opc : w.extractLsb' 28 4 = 4) : HostStep w s { s with fbc := { s.fbc with fb := clearedMemory } }
  | mode (m : Mode) (opc : w.extractLsb' 28 4 = 5 ∨ w.extractLsb' 28 4 = 6) (started : s.fbc.busStarted = true) :
      HostStep w s (enter (.mode m 0) s)
  | power (on : Bool) (opc : w.extractLsb' 28 4 = 7 ∨ w.extractLsb' 28 4 = 8) (started : s.fbc.busStarted = true) :
      HostStep w s (enter (.power on) s)
  | fault (k : FbcFault) (info : OpWord) (opc : canRaise k (w.extractLsb' 28 4)) : HostStep w s (raiseFbc k info s)

theorem hostStep_of_accept {w : OpWord} {s t u : State} (h : accept s u = .next t) (hu : HostStep w s u) :
    HostStep w s t := by
  obtain ⟨-, rfl⟩ | ⟨hb, rfl⟩ := accept_cases h
  · exact hu
  · exact .ignored hb

/-- A word that needs the bus does what it says only when the bus is started (40_bus_primitives R133). -/
theorem hostStep_of_acceptBus {v w : OpWord} {s t u : State} (h : acceptBus v s u = .next t)
    (hu : s.fbc.busStarted = true → HostStep w s u) (hf : canRaise .busNotStarted (w.extractLsb' 28 4)) :
    HostStep w s t := by
  refine hostStep_of_accept h ?_
  split
  · next hs => exact hu hs
  · exact .fault .busNotStarted v hf

theorem hostStep_of_reservedHost {w : OpWord} {opc : BitVec 4} {ign : BitVec 28} {s t : State}
    (h : reservedHost opc ign s = .next t) (hf : canRaise .badOp (w.extractLsb' 28 4)) : HostStep w s t :=
  hostStep_of_accept h (.fault .badOp _ hf)

/-- An opcode that is none of `0x0` to `0x8` is above them. -/
theorem above_eight_of_ne {opc : BitVec 4} (h0 : opc ≠ 0) (h1 : opc ≠ 1) (h2 : opc ≠ 2) (h3 : opc ≠ 3) (h4 : opc ≠ 4)
    (h5 : opc ≠ 5) (h6 : opc ≠ 6) (h7 : opc ≠ 7) (h8 : opc ≠ 8) : 8 < opc := by
  bv_omega

theorem hostStep_of_exec {w : OpWord} {s t : State} (h : exec (decodeHost w) s = .next t) : HostStep w s t := by
  unfold decodeHost at h
  split at h
  case h_1 hw => exact hostStep_of_accept h (.init _ _ hw)
  case h_2 hw =>
    refine hostStep_of_accept h ?_
    split
    · exact .pixel _ hw
    · exact .fault .coordRange _ hw
  case h_3 hw => exact hostStep_of_acceptBus h (.display hw) (.inl hw)
  case h_4 hw => exact hostStep_of_accept h (.clear hw)
  case h_5 hw => exact hostStep_of_acceptBus h (.mode _ (.inl hw)) (.inr (by rw [hw]; decide))
  case h_6 hw => exact hostStep_of_acceptBus h (.mode _ (.inr hw)) (.inr (by rw [hw]; decide))
  case h_7 hw => exact hostStep_of_acceptBus h (.power _ (.inl hw)) (.inr (by rw [hw]; decide))
  case h_8 hw => exact hostStep_of_acceptBus h (.power _ (.inr hw)) (.inr (by rw [hw]; decide))
  case h_9 hw => exact hostStep_of_reservedHost h (.inl hw)
  case h_16 h1 h2 h3 h4 h5 h6 h7 h8 h0 _ _ _ _ _ _ =>
    exact hostStep_of_reservedHost h (.inr (above_eight_of_ne h0 h1 h2 h3 h4 h5 h6 h7 h8))
  all_goals
    next hw => exact hostStep_of_reservedHost h (.inr (by rw [hw]; decide))

/-! ## Receptions and calls -/

/-- Every transaction acts on DRF alone (45_display_register_fsm R220). -/
theorem exec_decodeTxn (w : TxnWord) : ∃ f, ∀ s, exec (decodeTxn w) s = drfNext f s := by
  simp only [decodeTxn]
  split
  · exact ⟨fun d => d, fun _ => rfl⟩
  · split
    · exact ⟨_, fun _ => rfl⟩
    · split <;> exact ⟨_, fun _ => rfl⟩

/-- Every row of the command byte map acts on DRF alone. -/
theorem exec_commandRows : ∀ r ∈ commandRows, ∀ b v, ∃ f, ∀ s, exec (r.build b v) s = drfNext f s := by
  simp only [commandRows, definedRows, reservedRowsLow, reservedRowsMid, reservedRowsHigh, List.forall_mem_append,
    List.forall_mem_cons, List.not_mem_nil, false_imp_iff, implies_true, and_true]
  and_intros
  all_goals exact fun _ _ => ⟨_, fun _ => rfl⟩

/-- Every command acts on DRF alone (45_display_register_fsm R223). -/
theorem exec_decodeCommand {bytes more : List Byte} {i : Instr} (h : decodeCommand bytes = .ok (i, more)) :
    ∃ f, ∀ s, exec i s = drfNext f s := by
  cases bytes with
  | nil => cases h
  | cons b rest =>
    simp only [decodeCommand] at h
    cases hr : commandRow b with
    | none => rw [hr] at h; cases h
    | some r =>
      have hrow := exec_commandRows r (List.mem_of_find?_eq_some hr)
      simp only [hr] at h
      split at h
      · split at h
        · cases h
        · cases h; exact hrow _ _
      · cases h; exact hrow _ _

/-- Every call of sendCommand or sendData joins its transaction to the calls. -/
theorem exec_decodeSend {w : TxnWord} {i : Instr} (h : decodeSend w = .ok i) :
    ∃ es, ∀ s, exec i s = callPrimitive es s := by
  unfold decodeSend at h
  split at h
  · cases h; exact ⟨_, fun _ => rfl⟩
  · split at h
    · cases h; exact ⟨_, fun _ => rfl⟩
    · cases h

theorem exec_decodeCursor {w : TxnWord3} {i : Instr} (h : decodeCursor w = .ok i) :
    ∃ es, ∀ s, exec i s = callPrimitive es s := by
  simp only [decodeCursor] at h
  split at h
  · cases h; exact ⟨_, fun _ => rfl⟩
  · cases h

/-! ## A step -/

/-- A state in which an arrival has been taken from the inputs and a bench's call has joined the calls. -/
def joinCall (es : List Event) (rest : List Input) (s : State) : State :=
  { s with inputs := rest, calls := s.calls ++ es }

/-- What a step can do, in the order in which `fetch` looks (log 7). -/
inductive StepCase (s : State) : State → Prop
  | reset (width height : Nat) (draw : ResetDraw) (rest : List Input)
      (arrival : s.inputs = .reset width height draw :: rest) :
      StepCase s (construct width height draw { s with inputs := rest })
  | received (f : Drf → Drf) (rest : List Input) (arrival : noArrival s = false) :
      StepCase s { s with drf := f s.drf, inputs := rest }
  | called (es : List Event) (rest : List Input) (n : Nat) (arrival : noArrival s = false)
      (call : noNewCalls s = false) (idle : n ≠ 0 → s.fbc.seq = .idle) :
      StepCase s (callSteps n (joinCall es rest s))
  | sequencer (own : noArrival s = true) (busy : s.fbc.seq ≠ .idle) : StepCase s (sequencerStep s)
  | calls (own : noArrival s = true) (idle : s.fbc.seq = .idle) (calls : s.calls ≠ []) : StepCase s (callStep s).1
  | host {t : State} (own : noArrival s = true) (idle : s.fbc.seq = .idle) (calls : s.calls = []) (w : OpWord)
      (rest : List OpWord) (program : s.program = w :: rest) (word : HostStep w { s with program := rest } t) :
      StepCase s t
  | quiet : StepCase s s

theorem stepCase_of_drfNext {s t : State} {f : Drf → Drf} {rest : List Input}
    (h : drfNext f { s with inputs := rest } = .next t) (ha : noArrival s = false) : StepCase s t := by
  cases h; exact .received f rest ha

theorem stepCase_of_callPrimitive {s t : State} {es : List Event} {rest : List Input}
    (h : callPrimitive es { s with inputs := rest } = .next t) (ha : noArrival s = false)
    (hc : noNewCalls s = false) : StepCase s t := by
  by_cases hi : s.fbc.seq = .idle
  · rw [callPrimitive_idle (by exact hi)] at h
    cases h
    exact .called es rest _ ha hc fun _ => hi
  · rw [callPrimitive_busy (by exact hi)] at h
    cases h
    exact .called es rest 0 ha hc fun h0 => absurd rfl h0

theorem stepCase_of_fetchCommand {s t : State} {bytes : List Byte} {rest : List Input}
    (h : runFetch (fetchCommand bytes { s with inputs := rest }) = .next t) (ha : noArrival s = false) :
    StepCase s t := by
  unfold fetchCommand at h
  split at h
  · next hd => obtain ⟨f, hf⟩ := exec_decodeCommand hd; exact stepCase_of_drfNext ((hf _).symm.trans h) ha
  · next hd =>
    obtain ⟨f, hf⟩ := exec_decodeCommand hd
    exact stepCase_of_drfNext (rest := .command _ :: rest) ((hf _).symm.trans h) ha
  · exact stepCase_of_drfNext h ha
  · cases h; exact .received id rest ha

theorem stepCase_of_fetchCall {s t : State} {r : Decoded Instr} {rest : List Input}
    (hr : ∀ i, r = .ok i → ∃ es, ∀ s, exec i s = callPrimitive es s)
    (h : runFetch (fetchCall r { s with inputs := rest }) = .next t) (ha : noArrival s = false)
    (hc : noNewCalls s = false) : StepCase s t := by
  cases r with
  | ok i => obtain ⟨es, he⟩ := hr i rfl; exact stepCase_of_callPrimitive ((he _).symm.trans h) ha hc
  | reject e => cases h

theorem stepCase_of_fetchOwn {s t : State} (h : runFetch (fetchOwn s) = .next t) (ha : noArrival s = true) :
    StepCase s t := by
  obtain ⟨hb, he⟩ | ⟨hi, hc, he⟩ | ⟨hi, hc, w, rest, hp, he⟩ | ⟨-, -, -, he⟩ := fetchOwn_cases s <;> rw [he] at h
  · cases h; exact .sequencer ha hb
  · cases h; exact .calls ha hi hc
  · exact .host ha hi hc w rest hp (hostStep_of_exec h)
  · cases h; exact .quiet

/-- What a step can do. -/
theorem stepCase_of_step {s t : State} (h : step s = .next t) : StepCase s t := by
  rw [step_eq_runFetch] at h
  cases ha : noArrival s with
  | true => rw [fetch_noArrival ha] at h; exact stepCase_of_fetchOwn h ha
  | false =>
    cases hi : s.inputs with
    | nil => simp [noArrival, hi] at ha
    | cons x rest =>
      cases x <;> simp only [fetch, hi] at h
      case reset width height draw => cases h; exact .reset width height draw rest hi
      case txn t => obtain ⟨f, hf⟩ := exec_decodeTxn t; exact stepCase_of_drfNext ((hf _).symm.trans h) ha
      case command bytes => exact stepCase_of_fetchCommand h ha
      case callSend t => exact stepCase_of_fetchCall (fun _ => exec_decodeSend) h ha (by simp [noNewCalls, hi])
      case callCursor t => exact stepCase_of_fetchCall (fun _ => exec_decodeCursor) h ha (by simp [noNewCalls, hi])
      all_goals simp [noArrival, hi, Input.isAnswer] at ha

end Sys2Proof.Machine
end

section
/-! # What the shared operations leave of FBC: one lemma per field -/

namespace Sys2Proof.Machine

/-! ## `transact` -/

@[simp] theorem transact_fb (e : Event) (s : State) : (transact e s).1.fbc.fb = s.fbc.fb := by rw [transact_fbc]
@[simp] theorem transact_modeFlag (e : Event) (s : State) : (transact e s).1.fbc.modeFlag = s.fbc.modeFlag := by
  rw [transact_fbc]
@[simp] theorem transact_idx (e : Event) (s : State) : (transact e s).1.fbc.idx = s.fbc.idx := by rw [transact_fbc]
@[simp] theorem transact_seq (e : Event) (s : State) : (transact e s).1.fbc.seq = s.fbc.seq := by rw [transact_fbc]
@[simp] theorem transact_busStarted (e : Event) (s : State) :
    (transact e s).1.fbc.busStarted = s.fbc.busStarted := by
  rw [transact_fbc]
@[simp] theorem transact_pins (e : Event) (s : State) : (transact e s).1.fbc.pins = s.fbc.pins := by rw [transact_fbc]
@[simp] theorem transact_trace (e : Event) (s : State) :
    (transact e s).1.fbc.trace = if s.fbc.inFlight then s.fbc.trace else s.fbc.trace ++ [e] := by
  rw [transact_fbc]
@[simp] theorem transact_inFlight (e : Event) (s : State) : (transact e s).1.fbc.inFlight = !(transact e s).2 := by
  rw [transact_fbc]
@[simp] theorem transact_stride (e : Event) (s : State) : (transact e s).1.stride = s.stride := (transact_frame e s).1
@[simp] theorem transact_calls (e : Event) (s : State) : (transact e s).1.calls = s.calls := (transact_frame e s).2.2.1

/-- An emission delivers its event to DRF or leaves DRF alone. -/
theorem transact_drf (e : Event) (s : State) :
    (transact e s).1.drf = s.drf ∨ (transact e s).1.drf = deliver e s.drf := by
  have settled (u : State) : (settle e u).1.drf = u.drf ∨ (settle e u).1.drf = deliver e u.drf := by
    obtain ⟨_, _, h⟩ | ⟨_, _, h⟩ | ⟨_, _, h⟩ | h := settle_cases e u <;> simp [h]
  cases h : s.fbc.inFlight with
  | true => rw [transact_held h]; exact settled s
  | false => rw [transact_free h]; exact settled (launch e s)

/-! ## `callStep` -/

theorem callSteps_one (s : State) : callSteps 1 s = (callStep s).1 := by
  simp [callSteps]

/-- A bench's calls change of FBC only the trace and whether an event is in flight, and never the stride. -/
theorem callSteps_shape (n : Nat) (s : State) :
    (callSteps n s).stride = s.stride ∧
      ∃ tr fl, (callSteps n s).fbc = { s.fbc with trace := tr, inFlight := fl } := by
  refine callSteps_induct
    (P := fun t => t.stride = s.stride ∧ ∃ tr fl, t.fbc = { s.fbc with trace := tr, inFlight := fl }) ?_ n s
    ⟨rfl, _, _, rfl⟩
  rintro t ⟨hst, tr, fl, ht⟩
  obtain ⟨tr', fl', ht'⟩ := callStep_fbc t
  refine ⟨?_, tr', fl', by rw [ht', ht]⟩
  obtain ⟨_, h⟩ | ⟨e, _, _, _, h⟩ | ⟨e, _, _, _, h⟩ := callStep_cases t <;> simp [h, hst]

/-! ## `seqAdvance` -/

/-- Going on changes the position, with it the flush counter, the mode flag and the count of free values only. -/
theorem seqAdvance_shape (s : State) :
    ∃ m i q c, seqAdvance s = { s with freeCount := c, fbc := { s.fbc with modeFlag := m, idx := i, seq := q } } := by
  unfold seqAdvance
  split
  case h_8 => unfold flushNext; split <;> exact ⟨_, _, _, _, rfl⟩
  case h_9 => split <;> exact ⟨_, _, _, _, rfl⟩
  all_goals exact ⟨_, _, _, _, rfl⟩

@[simp] theorem seqAdvance_fb (s : State) : (seqAdvance s).fbc.fb = s.fbc.fb := by
  obtain ⟨_, _, _, _, h⟩ := seqAdvance_shape s; rw [h]
@[simp] theorem seqAdvance_busStarted (s : State) : (seqAdvance s).fbc.busStarted = s.fbc.busStarted := by
  obtain ⟨_, _, _, _, h⟩ := seqAdvance_shape s; rw [h]
@[simp] theorem seqAdvance_pins (s : State) : (seqAdvance s).fbc.pins = s.fbc.pins := by
  obtain ⟨_, _, _, _, h⟩ := seqAdvance_shape s; rw [h]
@[simp] theorem seqAdvance_trace (s : State) : (seqAdvance s).fbc.trace = s.fbc.trace := by
  obtain ⟨_, _, _, _, h⟩ := seqAdvance_shape s; rw [h]
@[simp] theorem seqAdvance_inFlight (s : State) : (seqAdvance s).fbc.inFlight = s.fbc.inFlight := by
  obtain ⟨_, _, _, _, h⟩ := seqAdvance_shape s; rw [h]
@[simp] theorem seqAdvance_drf (s : State) : (seqAdvance s).drf = s.drf := by
  obtain ⟨_, _, _, _, h⟩ := seqAdvance_shape s; rw [h]
@[simp] theorem seqAdvance_stride (s : State) : (seqAdvance s).stride = s.stride := by
  obtain ⟨_, _, _, _, h⟩ := seqAdvance_shape s; rw [h]

end Sys2Proof.Machine
end

section
/-! # The sequencer stays at a legal position (10_state R24, R25, 43_flush R184, 40_bus_primitives R133) -/

namespace Sys2Proof.Machine

/-- The invariant looks at the stride, the pins, the position, the flush counter and the bus only. -/
theorem sequencerOk_congr {s t : State} (hst : t.stride = s.stride) (hp : t.fbc.pins = s.fbc.pins)
    (hq : t.fbc.seq = s.fbc.seq) (hx : t.fbc.idx = s.fbc.idx) (hb : t.fbc.busStarted = s.fbc.busStarted) :
    sequencerOk t = sequencerOk s := by
  simp only [sequencerOk, hst, hp, hq, hx, hb]

/-- What a step writes before it emits keeps the invariant. -/
theorem sequencerOk_prepare {s : State} (h : sequencerOk s = true) :
    sequencerOk { s with fbc := seqPrepare s.fbc } = true := by
  cases hq : s.fbc.seq with
  | initCfg sda scl =>
    by_cases hp : pinsSupplied sda scl = true
    · simp [sequencerOk, seqPrepare, hq, hp]
    · simpa [sequencerOk, seqPrepare, hq, hp] using h
  | initStart => simpa [sequencerOk, seqPrepare, hq] using h
  | _ => simpa [sequencerOk, seqPrepare, hq] using h

/-- Going on keeps the invariant; the position after `INIT_START` relies on the bus having been started there. -/
theorem sequencerOk_advance {s : State} (h : sequencerOk s = true)
    (hstart : s.fbc.seq = .initStart → s.fbc.busStarted = true) : sequencerOk (seqAdvance s) = true := by
  obtain ⟨fbc, drf, stride, program, calls, inputs, freeCount⟩ := s
  obtain ⟨fb, modeFlag, idx, seq, busStarted, pins, fCoord, fBadop, fBusNotStarted, trace, inFlight⟩ := fbc
  simp only [sequencerOk, Bool.and_eq_true] at h hstart ⊢
  obtain ⟨hpins, hpos⟩ := h
  refine ⟨by simpa using hpins, ?_⟩
  cases seq with
  | idle => rfl
  | initCfg sda scl => rfl
  | initStart => simpa [seqAdvance, enter, initVector] using hstart
  | initSend k =>
    by_cases hk : k + 1 < initVector.length
    · simp_all [seqAdvance]
    · simp [seqAdvance, if_neg hk]
  | flush ph =>
    cases ph with
    | curLo => simpa [seqAdvance] using hpos
    | curHi => simpa [seqAdvance] using hpos
    | curPg => simp_all [seqAdvance]
    | data =>
      by_cases hi : idx = 1023
      · simp_all [seqAdvance, flushNext]
      · by_cases hg : groupDue stride (idx + 1) = true <;> simp_all [seqAdvance, flushNext]
  | mode t k =>
    by_cases hk : k = 0 <;> simp_all [seqAdvance]
  | power b => rfl


/-- The bus is started before `BusStart` is emitted (41_init R150). -/
theorem seqPrepare_initStart {f : Fbc} (h : (seqPrepare f).seq = .initStart) : (seqPrepare f).busStarted = true := by
  rw [seqPrepare_seq] at h
  simp [seqPrepare, h]

theorem sequencerOk_sequencerStep {s : State} (h : sequencerOk s = true) : sequencerOk (sequencerStep s) = true := by
  have hprep := sequencerOk_prepare h
  have hemit (e : Event) : sequencerOk (transact e { s with fbc := seqPrepare s.fbc }).1 = true :=
    (sequencerOk_congr (by simp) (by simp) (by simp) (by simp) (by simp)).trans hprep
  obtain ⟨-, he⟩ | ⟨e, -, -, he⟩ | ⟨e, -, -, he⟩ := sequencerStep_cases s <;> rw [he]
  · exact sequencerOk_advance hprep seqPrepare_initStart
  · exact hemit e
  · exact sequencerOk_advance (hemit e) fun hq => by
      simpa using seqPrepare_initStart (f := s.fbc) (by simpa using hq)

theorem sequencerOk_hostStep {w : OpWord} {s t : State} (h : sequencerOk s = true) (ht : HostStep w s t) :
    sequencerOk t = true := by
  cases ht with
  | ignored | pixel | clear => exact h
  | init => simp_all [sequencerOk]
  | display _ started => simp_all [sequencerOk, groupDue]
  | mode _ _ started => simp_all [sequencerOk]
  | power _ _ started => simp_all [sequencerOk]
  | fault k info => exact (sequencerOk_congr (by simp) (by simp) (by simp) (by simp) (by simp)).trans h

theorem sequencerOk_callSteps {n : Nat} {s : State} (h : sequencerOk s = true) :
    sequencerOk (callSteps n s) = true := by
  obtain ⟨hst, tr, fl, hf⟩ := callSteps_shape n s
  refine (sequencerOk_congr hst ?_ ?_ ?_ ?_).trans h <;> rw [hf]

theorem sequencerOk_step {s t : State} (h : sequencerOk s = true) (ht : step s = .next t) : sequencerOk t = true := by
  cases stepCase_of_step ht with
  | reset => rfl
  | received | quiet => exact h
  | called => exact sequencerOk_callSteps h
  | sequencer => exact sequencerOk_sequencerStep h
  | calls => rw [← callSteps_one]; exact sequencerOk_callSteps h
  | host _ _ _ _ rest _ word => exact sequencerOk_hostStep (s := { s with program := rest }) h word

end Sys2Proof.Machine
end

section
/-! # The event in flight is the one whose turn it is (20_memory R70; log 9, 13) -/

namespace Sys2Proof.Machine

theorem inFlightOk_iff (s : State) :
    inFlightOk s = true ↔
      (s.fbc.inFlight = true → ∃ e, currentEvent s = some e ∧ s.fbc.trace.getLast? = some e) := by
  cases hf : s.fbc.inFlight <;> cases hc : currentEvent s <;> simp [inFlightOk, hf, hc]

/-- With the transport free there is nothing to hold. -/
theorem inFlightOk_of_free {s : State} (h : s.fbc.inFlight = false) : inFlightOk s = true := by
  simp [inFlightOk, h]

/-- Where no event has its turn, none is in flight. -/
theorem inFlight_of_currentEvent_none {s : State} (h : inFlightOk s = true) (hc : currentEvent s = none) :
    s.fbc.inFlight = false := by
  simpa [inFlightOk, hc] using h

/-- The invariant looks at whether an event is in flight, at the trace and at whose turn it is. -/
theorem inFlightOk_congr {s t : State} (hf : t.fbc.inFlight = s.fbc.inFlight) (htr : t.fbc.trace = s.fbc.trace)
    (hc : currentEvent t = currentEvent s) : inFlightOk t = inFlightOk s := by
  simp only [inFlightOk, hf, htr, hc]

theorem currentEvent_idle {s : State} (h : s.fbc.seq = .idle) : currentEvent s = s.calls.head? := by
  simp [currentEvent, h]

theorem currentEvent_busy {s : State} (h : s.fbc.seq ≠ .idle) : currentEvent s = seqEvent s.fbc := by
  simp [currentEvent, h]

/-- What the position emits is read from the position, the flush counter and the framebuffer. -/
theorem seqEvent_congr {f g : Fbc} (hq : g.seq = f.seq) (hx : g.idx = f.idx) (hb : g.fb = f.fb) :
    seqEvent g = seqEvent f := by
  simp only [seqEvent, hq, hx, hb]

/-- Emitting or holding the event whose turn it is makes or keeps it the last of the trace. -/
theorem transact_getLast {e : Event} {s : State} (h : inFlightOk s = true) (hc : currentEvent s = some e) :
    (transact e s).1.fbc.trace.getLast? = some e := by
  rw [transact_trace]
  split
  · next hf =>
    obtain ⟨e', he', hl⟩ := (inFlightOk_iff s).mp h hf
    rw [hl, ← he', hc]
  · simp

theorem inFlightOk_callStep {s : State} (hi : s.fbc.seq = .idle) (h : inFlightOk s = true) :
    inFlightOk (callStep s).1 = true := by
  obtain ⟨-, he⟩ | ⟨e, rest, hc, -, he⟩ | ⟨e, rest, hc, hdone, he⟩ := callStep_cases s <;> rw [he]
  · exact h
  · have hcur : currentEvent s = some e := by rw [currentEvent_idle hi, hc]; rfl
    refine (inFlightOk_iff _).mpr fun _ => ⟨e, ?_, transact_getLast h hcur⟩
    rw [currentEvent_idle (by simpa using hi), transact_calls, hc]
    rfl
  · exact inFlightOk_of_free (by simp [hdone])

/-- Events that join the calls change nobody's turn while an event is in flight. -/
theorem inFlightOk_joinCall {es : List Event} {rest : List Input} {s : State} (h : inFlightOk s = true) :
    inFlightOk (joinCall es rest s) = true := by
  refine (inFlightOk_iff _).mpr fun hf => ?_
  obtain ⟨e, hc, hl⟩ := (inFlightOk_iff s).mp h hf
  refine ⟨e, ?_, hl⟩
  by_cases hi : s.fbc.seq = .idle
  · rw [currentEvent_idle hi] at hc
    rw [currentEvent_idle (by exact hi)]
    simp [joinCall, List.head?_append, hc]
  · rw [currentEvent_busy hi] at hc
    rw [currentEvent_busy (by exact hi)]
    exact hc

theorem inFlightOk_callSteps {n : Nat} {s : State} (hi : s.fbc.seq = .idle) (h : inFlightOk s = true) :
    inFlightOk (callSteps n s) = true := by
  refine (callSteps_induct (P := fun t => t.fbc.seq = .idle ∧ inFlightOk t = true) ?_ n s ⟨hi, h⟩).2
  rintro t ⟨hti, ht⟩
  obtain ⟨tr, fl, hf⟩ := callStep_fbc t
  exact ⟨by rw [hf]; exact hti, inFlightOk_callStep hti ht⟩

theorem inFlightOk_prepare {s : State} (h : inFlightOk s = true) :
    inFlightOk { s with fbc := seqPrepare s.fbc } = true := by
  refine (inFlightOk_congr (by simp) (by simp) ?_).trans h
  simp only [currentEvent, seqPrepare_seq, seqEvent_prepare]

theorem inFlightOk_sequencerStep {s : State} (hq : s.fbc.seq ≠ .idle) (h : inFlightOk s = true) :
    inFlightOk (sequencerStep s) = true := by
  have hprep := inFlightOk_prepare h
  have hcur : currentEvent { s with fbc := seqPrepare s.fbc } = seqEvent s.fbc := by
    rw [currentEvent_busy (by simpa using hq), seqEvent_prepare]
  obtain ⟨hn, he⟩ | ⟨e, hn, hdone, he⟩ | ⟨e, hn, hdone, he⟩ := sequencerStep_cases s <;> rw [he]
  · exact inFlightOk_of_free (by simpa using inFlight_of_currentEvent_none hprep (hcur.trans hn))
  · refine (inFlightOk_iff _).mpr fun _ => ⟨e, ?_, transact_getLast hprep (hcur.trans hn)⟩
    rw [currentEvent_busy (by simpa using hq), seqEvent_congr (f := s.fbc) (by simp) (by simp) (by simp), hn]
  · exact inFlightOk_of_free (by simp [hdone])

/-- No operation word touches the transport. -/
theorem HostStep.inFlight_eq {w : OpWord} {s t : State} (ht : HostStep w s t) : t.fbc.inFlight = s.fbc.inFlight := by
  cases ht <;> simp

theorem inFlightOk_step {s t : State} (h : inFlightOk s = true) (ht : step s = .next t) : inFlightOk t = true := by
  cases stepCase_of_step ht with
  | reset => rfl
  | received | quiet => exact h
  | called es rest n _ _ idle =>
    cases n with
    | zero => exact inFlightOk_joinCall h
    | succ n => exact inFlightOk_callSteps (idle (by simp)) (inFlightOk_joinCall h)
  | sequencer _ busy => exact inFlightOk_sequencerStep busy h
  | calls _ idle => exact inFlightOk_callStep idle h
  | host _ idle calls _ _ _ word =>
    have hfree := inFlight_of_currentEvent_none h (by rw [currentEvent_idle idle, calls]; rfl)
    exact inFlightOk_of_free (word.inFlight_eq.trans hfree)

/-- Settles O45: the position and the event in flight, each an invariant of its own. -/
theorem stepKeepsSequencer : Obligations.StepKeepsSequencer := by
  unfold Obligations.StepKeepsSequencer
  exact fun s t ht => ⟨fun h => sequencerOk_step h ht, fun h => inFlightOk_step h ht⟩

end Sys2Proof.Machine
end

section
/-! # The mode flag names the last mode sent (10_state R41)

Each completed event moves the scan of the trace as it moves the sequencer: the scan awaits a selector exactly where the
position does, and a completed selector names the mode that is written to the flag. -/

namespace Sys2Proof.Machine

/-! ## The completed events -/

/-- An event that is held is not complete. -/
theorem settledTrace_transact_held {e : Event} {s : State} (h : (transact e s).2 = false) :
    settledTrace (transact e s).1.fbc = settledTrace s.fbc := by
  cases hf : s.fbc.inFlight <;> simp [settledTrace, h, hf]

/-- The event whose turn it is joins the completed ones when the transport completes it. -/
theorem settledTrace_transact_done {e : Event} {s : State} (hok : inFlightOk s = true) (hc : currentEvent s = some e)
    (h : (transact e s).2 = true) : settledTrace (transact e s).1.fbc = settledTrace s.fbc ++ [e] := by
  have hl := transact_getLast hok hc
  cases hf : s.fbc.inFlight with
  | false => simp [settledTrace, h, hf]
  | true =>
    simp only [transact_trace, hf, if_true] at hl
    obtain ⟨before, htrace⟩ := List.getLast?_eq_some_iff.mp hl
    simp [settledTrace, h, hf, htrace]

@[simp] theorem settledTrace_prepare (f : Fbc) : settledTrace (seqPrepare f) = settledTrace f := by
  simp [settledTrace]

@[simp] theorem settledTrace_seqAdvance (s : State) : settledTrace (seqAdvance s).fbc = settledTrace s.fbc := by
  simp [settledTrace]

/-! ## The scan -/

theorem selectorScan_append (es : List Event) (e : Event) :
    selectorScan (es ++ [e]) = selectorScanStep (selectorScan es) e := by
  simp [selectorScan]

theorem selectorScanStep_opcode (v : Byte) (last : Option Mode) :
    selectorScanStep (false, last) (.txn (commandTxn v)) = (v == 0x20, last) := rfl

theorem selectorScanStep_selector (v : Byte) (last : Option Mode) :
    selectorScanStep (true, last) (.txn (commandTxn v)) = (false, selectorMode v) := rfl

theorem selectorScanStep_data (v : Byte) (r : Bool × Option Mode) :
    selectorScanStep r (.txn (dataTxn v)) = r := rfl

theorem selectorMode_selector (m : Mode) : selectorMode (modeSelector m) = some m := by cases m <;> rfl

/-- No byte of a reposition group is the addressing-mode opcode. -/
theorem colLowByte_ne_modeOpcode : ∀ c, (colLowByte c == 0x20) = false := by decide
theorem colHighByte_ne_modeOpcode : ∀ c, (colHighByte c == 0x20) = false := by decide
theorem pageByte_ne_modeOpcode : ∀ p, (pageByte p == 0x20) = false := by decide

/-- The addressing-mode opcode stands once in the vector, before the selector (41_init R151). -/
theorem initVector_modeOpcode :
    ∀ k, (h : k < initVector.length) → (initVector[k] == 0x20) = decide (k + 1 = initModeElement) := by decide

/-- Of the positions after an element of the vector, the one that awaits the selector is that of the mode selector. -/
theorem awaitsSelector_afterSend (k : Nat) :
    awaitsSelector (if k + 1 < initVector.length then .initSend (k + 1) else .idle) =
      decide (k + 1 = initModeElement) := by
  split
  · rfl
  · next h => exact (decide_eq_false fun hk : k + 1 = initModeElement => h (hk ▸ by decide)).symm

/-- The event of a position moves the scan as it moves the sequencer. -/
theorem selectorScanStep_advance {s : State} {e : Event} (he : seqEvent s.fbc = some e) (last : Option Mode) :
    (selectorScanStep (awaitsSelector s.fbc.seq, last) e).1 = awaitsSelector (seqAdvance s).fbc.seq ∧
    ((selectorScanStep (awaitsSelector s.fbc.seq, last) e).2 = some (seqAdvance s).fbc.modeFlag ∨
      (selectorScanStep (awaitsSelector s.fbc.seq, last) e).2 = last ∧
        (seqAdvance s).fbc.modeFlag = s.fbc.modeFlag) := by
  obtain ⟨fbc, drf, stride, program, calls, inputs, freeCount⟩ := s
  obtain ⟨fb, modeFlag, idx, seq, busStarted, pins, fCoord, fBadop, fBusNotStarted, trace, inFlight⟩ := fbc
  cases seq with
  | idle => cases he
  | initCfg sda scl =>
    simp only [seqEvent] at he
    split at he
    · cases he; exact ⟨rfl, .inr ⟨rfl, rfl⟩⟩
    · cases he
  | initStart => cases he; exact ⟨rfl, .inr ⟨rfl, rfl⟩⟩
  | initSend k =>
    obtain ⟨v, hv, rfl⟩ := Option.map_eq_some_iff.mp he
    obtain ⟨hk, rfl⟩ := List.getElem?_eq_some_iff.mp hv
    by_cases hm : k = initModeElement
    · subst hm; exact ⟨rfl, .inl rfl⟩
    · have hawait : awaitsSelector (.initSend k) = false := decide_eq_false hm
      rw [hawait, selectorScanStep_opcode, initVector_modeOpcode k hk]
      exact ⟨(awaitsSelector_afterSend k).symm, .inr ⟨rfl, if_neg hm⟩⟩
  | flush ph =>
    cases ph with
    | curLo => cases he; exact ⟨colLowByte_ne_modeOpcode _, .inr ⟨rfl, rfl⟩⟩
    | curHi => cases he; exact ⟨colHighByte_ne_modeOpcode _, .inr ⟨rfl, rfl⟩⟩
    | curPg => cases he; exact ⟨pageByte_ne_modeOpcode _, .inr ⟨rfl, rfl⟩⟩
    | data =>
      cases he
      refine ⟨?_, .inr ⟨rfl, ?_⟩⟩ <;> simp only [seqAdvance, flushNext] <;> split
      · rfl
      · split <;> rfl
      · rfl
      · rfl
  | mode t k =>
    cases he
    by_cases hk : k = 0
    · subst hk; exact ⟨rfl, .inr ⟨rfl, rfl⟩⟩
    · obtain rfl : k = 1 := by omega
      exact ⟨rfl, .inl (selectorMode_selector t)⟩
  | power b => cases he; cases b <;> exact ⟨rfl, .inr ⟨rfl, rfl⟩⟩


/-! ## The invariant -/

theorem modeOk_iff (s : State) :
    modeOk s = true ↔
      inFlightOk s = true ∧ (selectorScan (settledTrace s.fbc)).1 = awaitsSelector s.fbc.seq ∧
        ∀ m, (selectorScan (settledTrace s.fbc)).2 = some m → s.fbc.modeFlag = m := by
  cases h : (selectorScan (settledTrace s.fbc)).2 <;> simp [modeOk, h, and_assoc]

/-- A position without an event neither awaits a selector nor writes the mode flag. -/
theorem seqAdvance_without_event {s : State} (h : seqEvent s.fbc = none) :
    awaitsSelector (seqAdvance s).fbc.seq = awaitsSelector s.fbc.seq ∧
      (seqAdvance s).fbc.modeFlag = s.fbc.modeFlag := by
  obtain ⟨fbc, drf, stride, program, calls, inputs, freeCount⟩ := s
  obtain ⟨fb, modeFlag, idx, seq, busStarted, pins, fCoord, fBadop, fBusNotStarted, trace, inFlight⟩ := fbc
  cases seq with
  | idle | initCfg => exact ⟨rfl, rfl⟩
  | initSend k =>
    have hk : initVector.length ≤ k := by simpa [seqEvent] using h
    have hm : k ≠ initModeElement := fun hk' => absurd (hk' ▸ hk) (by decide)
    have hlast : ¬ k + 1 < initVector.length := by omega
    simp [seqAdvance, awaitsSelector, initModeWrite, hm, hlast]
  | initStart | mode | power => cases h
  | flush ph => cases ph <;> cases h

theorem modeOk_sequencerStep {s : State} (hq : s.fbc.seq ≠ .idle) (h : modeOk s = true) :
    modeOk (sequencerStep s) = true := by
  obtain ⟨hfl, hscan, hflag⟩ := (modeOk_iff s).mp h
  refine (modeOk_iff _).mpr ⟨inFlightOk_sequencerStep hq hfl, ?_⟩
  have hprep := inFlightOk_prepare hfl
  have hcur : currentEvent { s with fbc := seqPrepare s.fbc } = seqEvent s.fbc := by
    rw [currentEvent_busy (by simpa using hq), seqEvent_prepare]
  obtain ⟨hn, he⟩ | ⟨e, hn, hdone, he⟩ | ⟨e, hn, hdone, he⟩ := sequencerStep_cases s <;> rw [he]
  · obtain ⟨hseq, hmode⟩ :=
      seqAdvance_without_event (s := { s with fbc := seqPrepare s.fbc }) ((seqEvent_prepare _).trans hn)
    rw [hseq, hmode]
    simpa using ⟨hscan, hflag⟩
  · rw [settledTrace_transact_held hdone]
    simpa using ⟨hscan, hflag⟩
  · have htrace := settledTrace_transact_done hprep (hcur.trans hn) hdone
    obtain ⟨hawait, hlast⟩ := selectorScanStep_advance (s := (transact e { s with fbc := seqPrepare s.fbc }).1)
      ((seqEvent_congr (f := s.fbc) (by simp) (by simp) (by simp)).trans hn) (selectorScan (settledTrace s.fbc)).2
    rw [settledTrace_seqAdvance, htrace, selectorScan_append, settledTrace_prepare, ← hawait]
    simp only [transact_seq, seqPrepare_seq, ← hscan, true_and]
    simp only [transact_seq, seqPrepare_seq, ← hscan, transact_modeFlag, seqPrepare_modeFlag] at hlast
    obtain hsent | ⟨hkept, hmode⟩ := hlast
    · rw [hsent]; exact fun m hm => Option.some.inj hm
    · rw [hkept, hmode]; exact hflag

/-- An operation word completes no event, leaves the mode flag as it is and enters no position inside a mode command. -/
theorem HostStep.mode_frame {w : OpWord} {s t : State} (ht : HostStep w s t) :
    settledTrace t.fbc = settledTrace s.fbc ∧ t.fbc.modeFlag = s.fbc.modeFlag ∧
      (s.fbc.seq = .idle → awaitsSelector t.fbc.seq = awaitsSelector s.fbc.seq) := by
  cases ht with
  | ignored | pixel | clear => exact ⟨rfl, rfl, fun _ => rfl⟩
  | init | display | mode | power => exact ⟨rfl, rfl, fun hi => by rw [hi]; rfl⟩
  | fault => simp [settledTrace]

theorem modeOk_step {s t : State} (hcalls : noCalls s = true) (h : modeOk s = true) (ht : step s = .next t) :
    modeOk t = true := by
  obtain ⟨hnone, hnew⟩ : s.calls = [] ∧ noNewCalls s = true := by simpa [noCalls] using hcalls
  cases stepCase_of_step ht with
  | reset => rfl
  | received | quiet => exact h
  | called _ _ _ _ call => simp [hnew] at call
  | sequencer _ busy => exact modeOk_sequencerStep busy h
  | calls _ _ calls => exact absurd hnone calls
  | host _ idle _ w _ _ word =>
    obtain ⟨hfl, hscan, hflag⟩ := (modeOk_iff s).mp h
    obtain ⟨htrace, hmode, hseq⟩ := word.mode_frame
    refine (modeOk_iff t).mpr ⟨inFlightOk_step hfl ht, ?_⟩
    rw [htrace, hmode, hseq idle]
    exact ⟨hscan, hflag⟩

/-- Settles O46: with no bench's call the events of the trace are the sequencer's own. -/
theorem stepKeepsModeFlag : Obligations.StepKeepsModeFlag := by
  unfold Obligations.StepKeepsModeFlag
  exact fun s t hcalls h ht => modeOk_step hcalls h ht

end Sys2Proof.Machine
end

section
/-! # What an operation word leaves unchanged (10_state R30, 20_memory R65) -/

namespace Sys2Proof.Machine

/-- Plotting a pixel leaves every byte but the pixel's own as it was (42_pixel R165). -/
theorem read_plotPixel_ne {x y color : Byte} {m : Memory} {a : Nat} (h : a ≠ (pixelIndex x y).toNat) :
    Memory.read (plotPixel x y color m) a = Memory.read m a :=
  Memory.read_write_ne h

/-- Settles O15: each of the things a word can do changes the fields its opcode names. -/
theorem hostOperationsFrame : Obligations.HostOperationsFrame := by
  unfold Obligations.HostOperationsFrame
  intro w s t h
  cases hostStep_of_exec h with
  | ignored => simp
  | init _ _ opc => simp [opc]
  | pixel color opc => simpa [opc] using fun a ha => read_plotPixel_ne ha
  | display opc => simp [opc]
  | clear opc => simp [opc]
  | mode _ opc => obtain opc | opc := opc <;> simp [opc]
  | power _ opc => obtain opc | opc := opc <;> simp [opc]
  | fault k info opc =>
    generalize w.extractLsb' 28 4 = op at opc
    cases k with
    | coordRange => simp [raiseFbc, show op = 2 from opc]
    | badOp =>
      have hop : op = 0 ∨ 8 < op := opc
      have hno : 1 ≤ op → ¬ op ≤ 8 := by bv_omega
      simpa [raiseFbc] using fun h1 h8 => absurd h8 (hno h1)
    | busNotStarted =>
      have hop : op = 3 ∨ 5 ≤ op ∧ op ≤ 8 := opc
      have hno : op ≠ 3 → op ≠ 5 → op ≠ 6 → op ≠ 7 → ¬ op ≠ 8 := by bv_omega
      simpa [raiseFbc] using fun h3 h5 h6 h7 h8 => absurd h8 (hno h3 h5 h6 h7)

end Sys2Proof.Machine
end

section
/-! # The trace only grows, and who writes the two memories (10_state R21, R24, R27, R31) -/

namespace Sys2Proof.Machine

/-! ## The trace -/

/-- An emission adds at most its own event. -/
theorem transact_grows (e : Event) (s : State) :
    ∃ es, (transact e s).1.fbc.trace = s.fbc.trace ++ es ∧ es.length ≤ 1 := by
  rw [transact_trace]
  split
  · exact ⟨[], by simp⟩
  · exact ⟨[e], by simp⟩

theorem callStep_grows (s : State) : ∃ es, (callStep s).1.fbc.trace = s.fbc.trace ++ es ∧ es.length ≤ 1 := by
  obtain ⟨_, h⟩ | ⟨e, _, _, _, h⟩ | ⟨e, _, _, _, h⟩ := callStep_cases s <;> rw [h]
  · exact ⟨[], by simp⟩
  · exact transact_grows e s
  · exact transact_grows e s

theorem callSteps_grow (n : Nat) (s : State) : ∃ es, (callSteps n s).fbc.trace = s.fbc.trace ++ es := by
  refine callSteps_induct (P := fun t => ∃ es, t.fbc.trace = s.fbc.trace ++ es) ?_ n s ⟨[], by simp⟩
  rintro t ⟨es, ht⟩
  obtain ⟨es', ht', -⟩ := callStep_grows t
  exact ⟨es ++ es', by rw [ht', ht, List.append_assoc]⟩

theorem sequencerStep_grows (s : State) :
    ∃ es, (sequencerStep s).fbc.trace = s.fbc.trace ++ es ∧ es.length ≤ 1 := by
  obtain ⟨_, h⟩ | ⟨e, _, _, h⟩ | ⟨e, _, _, h⟩ := sequencerStep_cases s <;> rw [h]
  · exact ⟨[], by simp⟩
  · simpa using transact_grows e { s with fbc := seqPrepare s.fbc }
  · simpa using transact_grows e { s with fbc := seqPrepare s.fbc }

/-- No operation word emits anything in the step that accepts it. -/
theorem HostStep.trace_eq {w : OpWord} {s t : State} (ht : HostStep w s t) : t.fbc.trace = s.fbc.trace := by
  cases ht <;> simp

/-- Settles O56: every case of a step but reset appends to the trace, the block's own at most one event. -/
theorem traceOnlyGrows : Obligations.TraceOnlyGrows := by
  unfold Obligations.TraceOnlyGrows
  intro s t hr ht
  cases stepCase_of_step ht with
  | reset _ _ _ _ arrival => simp [noReset, arrival] at hr
  | received | quiet => exact ⟨[], by simp⟩
  | called es rest n arrival =>
    obtain ⟨es', h⟩ := callSteps_grow n (joinCall es rest s)
    exact ⟨es', h, fun own => by simp [arrival] at own⟩
  | sequencer => obtain ⟨es, h, hn⟩ := sequencerStep_grows s; exact ⟨es, h, fun _ => hn⟩
  | calls => obtain ⟨es, h, hn⟩ := callStep_grows s; exact ⟨es, h, fun _ => hn⟩
  | host _ _ _ _ _ _ word => exact ⟨[], by simpa using word.trace_eq⟩

/-! ## The framebuffer -/

@[simp] theorem sequencerStep_fb (s : State) : (sequencerStep s).fbc.fb = s.fbc.fb := by
  obtain ⟨_, h⟩ | ⟨_, _, _, h⟩ | ⟨_, _, _, h⟩ := sequencerStep_cases s <;> simp [h]

theorem callSteps_fb (n : Nat) (s : State) : (callSteps n s).fbc.fb = s.fbc.fb := by
  obtain ⟨-, _, _, h⟩ := callSteps_shape n s
  rw [h]

/-- Of the operation words only SET_PIXEL and CLEAR_DISPLAY write the framebuffer. -/
theorem HostStep.opc_of_fb_ne {w : OpWord} {s t : State} (ht : HostStep w s t) (hne : t.fbc.fb ≠ s.fbc.fb) :
    w.extractLsb' 28 4 = 2 ∨ w.extractLsb' 28 4 = 4 := by
  cases ht with
  | pixel _ opc => exact .inl opc
  | clear opc => exact .inr opc
  | _ => simp at hne

/-- Settles O58: every case of a step but the host's keeps the framebuffer. -/
theorem framebufferWriters : Obligations.FramebufferWriters := by
  unfold Obligations.FramebufferWriters
  intro s t hr ht hne
  cases stepCase_of_step ht with
  | reset _ _ _ _ arrival => simp [noReset, arrival] at hr
  | received | quiet => exact absurd rfl hne
  | called es rest n => exact absurd (callSteps_fb n (joinCall es rest s)) hne
  | sequencer => exact absurd (sequencerStep_fb s) hne
  | calls => exact absurd (callSteps_one s ▸ callSteps_fb 1 s) hne
  | host own idle _ w rest program word => exact ⟨own, idle, w, rest, program, word.opc_of_fb_ne hne⟩

/-! ## The display RAM -/

/-- Delivering a command does not write the display RAM. -/
theorem deliver_command_gddram (v : Byte) (d : Drf) : (deliver (.txn (commandTxn v)) d).gddram = d.gddram :=
  receiveCommand_gddram v d

/-- Of the positions' events only the data byte of a flush writes the display RAM. -/
theorem deliver_seqEvent_gddram {f : Fbc} {e : Event} (he : seqEvent f = some e) (hq : f.seq ≠ .flush .data) (d : Drf) :
    (deliver e d).gddram = d.gddram := by
  unfold seqEvent at he
  split at he
  case h_1 => cases he
  case h_2 =>
    split at he
    · cases he; rfl
    · cases he
  case h_3 => cases he; rfl
  case h_4 =>
    obtain ⟨v, -, rfl⟩ := Option.map_eq_some_iff.mp he
    exact deliver_command_gddram v d
  case h_8 hd => exact absurd hd hq
  all_goals cases he; exact deliver_command_gddram _ d

theorem sequencerStep_gddram {s : State} (hq : s.fbc.seq ≠ .flush .data) :
    (sequencerStep s).drf.gddram = s.drf.gddram := by
  have hemit {e : Event} (he : seqEvent s.fbc = some e) :
      (transact e { s with fbc := seqPrepare s.fbc }).1.drf.gddram = s.drf.gddram := by
    obtain h | h := transact_drf e { s with fbc := seqPrepare s.fbc } <;> rw [h]
    exact deliver_seqEvent_gddram he hq s.drf
  obtain ⟨_, h⟩ | ⟨e, he, _, h⟩ | ⟨e, he, _, h⟩ := sequencerStep_cases s <;> rw [h]
  · rw [seqAdvance_drf]
  · exact hemit he
  · rw [seqAdvance_drf]; exact hemit he

/-- No operation word reaches DRF in the step that accepts it. -/
theorem HostStep.drf_eq {w : OpWord} {s t : State} (ht : HostStep w s t) : t.drf = s.drf := by
  cases ht <;> simp

/-- Settles O59: without arrival or call only the sequencer delivers anything, and only its data byte is written. -/
theorem displayRamWriters : Obligations.DisplayRamWriters := by
  unfold Obligations.DisplayRamWriters
  intro s t ha hq hc ht a
  cases stepCase_of_step ht with
  | reset _ _ _ _ arrival => simp [noArrival, arrival, Input.isAnswer] at ha
  | received _ _ arrival => simp [ha] at arrival
  | called _ _ _ arrival => simp [ha] at arrival
  | sequencer => rw [sequencerStep_gddram hq]
  | calls _ idle calls => exact absurd (hc idle) calls
  | host _ _ _ _ _ _ word => rw [word.drf_eq]
  | quiet => rfl

end Sys2Proof.Machine
end

section
/-! # What reset leaves (10_state R46) -/

namespace Sys2Proof.Machine

/-- The canonical form of a memory that is canonical already reads the same. -/
theorem Memory.read_canonical_from {lo : Nat} {m : Memory} (h : Memory.wfFrom lo m = true) (a : Nat) :
    Memory.read (Memory.canonical m) a = Memory.read m a := by
  induction m generalizing lo with
  | nil => rfl
  | cons c rest ih =>
    obtain ⟨b, v⟩ := c
    obtain ⟨-, hb, -, hrest⟩ := Memory.wfFrom_cons.mp h
    rw [Memory.canonical, if_pos hb, Memory.read_write (Memory.wf_canonical rest), Memory.read, ih hrest]
    simp only [eq_comm]

/-- Every address of the framebuffer holds its byte of FB_RESET_PATTERN. -/
theorem read_resetFramebuffer {a : Nat} (ha : a < 1024) :
    Memory.read resetFramebuffer a = Config.fbResetPattern a := by
  unfold resetFramebuffer
  exact Memory.read_ofFn _ ha

/-- Settles O41: the framebuffer is the pattern, which is not all zero at the marked address; the rest is read off. -/
theorem resetValues : Obligations.ResetValues := by
  unfold Obligations.ResetValues
  intro d
  refine ⟨fun a ha => read_resetFramebuffer ha, ⟨Config.fbPatternMark.val, Config.fbPatternMark.isLt, ?_⟩, ?_⟩
  · exact (read_resetFramebuffer Config.fbPatternMark.isLt).symm ▸ resetPattern_marked
  · exact ⟨rfl, rfl, rfl, rfl, rfl, rfl, rfl, rfl, rfl, rfl, rfl, rfl, rfl, rfl, rfl, rfl, rfl, rfl, rfl, rfl, rfl, rfl,
      rfl, rfl, rfl, rfl, rfl, rfl, rfl, rfl, rfl, rfl, rfl, rfl, fun h a => Memory.read_canonical_from h a⟩

/-- Settles O49: nothing is in flight, the trace is empty and the position is `IDLE`. -/
theorem resetMeetsInvariants : Obligations.ResetMeetsInvariants := by
  unfold Obligations.ResetMeetsInvariants
  intro d
  have hmem : memoryOk (State.resetWith d) = true := by
    simp [memoryOk, State.resetWith, resetFramebuffer_wf, Memory.wf_canonical]
  exact ⟨hmem, rfl, rfl, rfl, rfl, rfl⟩

end Sys2Proof.Machine
end

section
/-! # A whole DISPLAY mirrors the framebuffer (43_flush R183 to R186, 10_state R43)

The flush goes from index to index: `Mirroring s rest q i n t` says that `t` is the state of a DISPLAY begun in `s` that
stands at position `q` before index `i`, with the bytes below `i` mirrored and `n` transactions still to complete.
Where the cursor stands is said apart, before a data byte (`CursorAt`) and between two indices (`CursorAfter`). -/

namespace Sys2Proof.Machine

/-! ## DRF receives a reposition group -/

theorem receiveCommand_colLowByte {d : Drf} (h : d.pending = none) (c : BitVec 7) :
    receiveCommand (colLowByte c) d = setColLowOp (c.extractLsb' 0 4) d := by
  have hrow : ∀ n : BitVec 4, (0x0#4 ++ n : Byte) &&& 0xF0#8 = 0x00#8 := by decide
  rw [receiveCommand, commandByte_none h, receiveOpcode, colLowByte, if_pos (hrow _), nibbles_low]

theorem receiveCommand_colHighByte {d : Drf} (h : d.pending = none) (c : BitVec 7) :
    receiveCommand (colHighByte c) d = setColHighOp (c.extractLsb' 4 3) d := by
  have hrow : ∀ n : BitVec 3, (0b00010#5 ++ n : Byte) &&& 0xF0#8 ≠ 0x00#8 ∧
      (0b00010#5 ++ n : Byte) &&& 0xF8#8 = 0x10#8 ∧ (0b00010#5 ++ n : Byte).extractLsb' 0 3 = n := by decide
  obtain ⟨hlow, hhigh, hn⟩ := hrow (c.extractLsb' 4 3)
  rw [receiveCommand, commandByte_none h, receiveOpcode, colHighByte, if_neg hlow, if_pos hhigh, hn]

theorem receiveCommand_pageByte {d : Drf} (h : d.pending = none) (p : BitVec 4) :
    receiveCommand (pageByte p) d = setPageOp p d := by
  have hrow : ∀ n : BitVec 4, (0xB#4 ++ n : Byte) &&& 0xF0#8 = 0xB0#8 ∧
      (0xB#4 ++ n : Byte) &&& 0xF8#8 ≠ 0x10#8 ∧ (0xB#4 ++ n : Byte) &&& 0xF8#8 ≠ 0x18#8 := by decide
  obtain ⟨hpage, hhigh, hrange⟩ := hrow p
  rw [receiveCommand, commandByte_none h, receiveOpcode, pageByte, if_neg (by rw [hpage]; decide), if_neg hhigh,
    if_neg hrange, if_pos hpage, nibbles_low]

/-- The two column commands put together the whole column (30_encoding R100). -/
theorem column_halves : ∀ c : BitVec 7, c.extractLsb' 4 3 ++ c.extractLsb' 0 4 = c := by decide

/-- A reposition group delivered to a DRF with nothing pending sets column and page. -/
theorem receive_group {d : Drf} (h : d.pending = none) (c : BitVec 7) (p : BitVec 4) :
    receiveCommand (pageByte p) (receiveCommand (colHighByte c) (receiveCommand (colLowByte c) d)) =
      { d with col := c, page := p } := by
  rw [receiveCommand_colLowByte h, receiveCommand_colHighByte (by simpa using h),
    receiveCommand_pageByte (by simpa using h)]
  have hcol : (d.col.extractLsb' 4 3 ++ c.extractLsb' 0 4).extractLsb' 0 4 = c.extractLsb' 0 4 :=
    BitVec.extractLsb'_append_eq_right
  simp only [setPageOp, setColHighOp, setColLowOp, hcol, column_halves]

/-! ## The steps of one index -/

/-- The three steps of a reposition group, each transaction delivered (43_flush R184). -/
theorem steps_flushGroup {s : State} {rest : List Input} (hq : s.fbc.seq = .flush .curLo) (hf : s.fbc.inFlight = false)
    (hp : s.drf.pending = none) (hi : s.inputs = .done :: .done :: .done :: rest) :
    steps 3 s =
      .next
        { s with
          inputs := rest
          drf := { s.drf with col := colCnt s.fbc.idx, page := pageCnt s.fbc.idx }
          fbc :=
            { s.fbc with
              seq := .flush .data
              trace := s.fbc.trace ++ [.txn (commandTxn (colLowByte (colCnt s.fbc.idx)))] ++
                [.txn (commandTxn (colHighByte (colCnt s.fbc.idx)))] ++
                [.txn (commandTxn (pageByte (pageCnt s.fbc.idx)))] } } := by
  obtain ⟨fbc, drf, stride, program, calls, inputs, freeCount⟩ := s
  obtain ⟨fb, modeFlag, idx, seq, busStarted, pins, fCoord, fBadop, fBusNotStarted, trace, inFlight⟩ := fbc
  subst hq hf hi
  rw [steps_succ (step_busy_done (by simp) rfl rfl rfl), steps_succ (step_busy_done (by simp [seqAdvance]) rfl rfl rfl),
    steps_succ (step_busy_done (by simp [seqAdvance]) rfl rfl rfl), ← receive_group hp]
  rfl

/-- The step of a data byte, delivered. -/
theorem step_flushData {s : State} {rest : List Input} (hq : s.fbc.seq = .flush .data) (hf : s.fbc.inFlight = false)
    (hi : s.inputs = .done :: rest) :
    step s =
      .next (flushNext
        { s with
          inputs := rest
          drf := receiveData (Memory.read s.fbc.fb s.fbc.idx.toNat) s.drf
          fbc :=
            { s.fbc with
              trace := s.fbc.trace ++ [.txn (dataTxn (Memory.read s.fbc.fb s.fbc.idx.toNat))] } }) := by
  obtain ⟨fbc, drf, stride, program, calls, inputs, freeCount⟩ := s
  obtain ⟨fb, modeFlag, idx, seq, busStarted, pins, fCoord, fBadop, fBusNotStarted, trace, inFlight⟩ := fbc
  subst hq hf hi
  rw [step_busy_done (by simp) rfl rfl rfl]
  rfl

/-! ## The cursor -/

/-- The cursor stands at index `i`, as it must before the data byte. -/
def CursorAt (i : Nat) (d : Drf) : Prop := d.col.toNat = i % 128 ∧ d.page.toNat = i / 128

/-- Where the cursor stands after the data bytes below `i`: the page after column 127 is the mode's (R246, R247). -/
def CursorAfter (i : Nat) (d : Drf) : Prop :=
  d.col.toNat = i % 128 ∧ d.page.toNat = match d.addrMode with | .horizontal => i / 128 % 8 | .page => (i - 1) / 128

/-- Moving the cursor changes column and page only. -/
theorem advanceCursor_shape (d : Drf) : ∃ c p, advanceCursor d = { d with col := c, page := p } := by
  unfold advanceCursor
  split
  · exact ⟨_, _, rfl⟩
  · split <;> exact ⟨_, _, rfl⟩

theorem cursorAfter_advanceCursor {i : Nat} {d : Drf} (hi : i < 1024) (h : CursorAt i d) :
    CursorAfter (i + 1) (advanceCursor d) := by
  obtain ⟨hcol, hpage⟩ := h
  unfold advanceCursor CursorAfter
  split
  · next hlt =>
    have hc : (d.col + 1).toNat = d.col.toNat + 1 := by
      rw [BitVec.toNat_add]
      change (d.col.toNat + 1) % 128 = _
      omega
    refine ⟨by simp only [hc]; omega, ?_⟩
    cases d.addrMode <;> simp only <;> omega
  · next hlt =>
    have h127 : i % 128 = 127 := by omega
    have hp : ((d.page + 1) % 8).toNat = (d.page.toNat + 1) % 8 := by
      rw [BitVec.toNat_umod, BitVec.toNat_add]
      change (d.page.toNat + 1) % 16 % 8 = _
      omega
    have h0 : (0 : BitVec 7).toNat = 0 := rfl
    split
    · next hm => simp only [hm, hp, h0]; omega
    · next hm => simp only [hm, h0]; omega

/-- A data byte received with the cursor at index `i` is written there (R245). -/
theorem receiveData_at {i : Nat} {v : Byte} {d : Drf} (hi : i < 1024) (hp : d.pending = none) (h : CursorAt i d) :
    receiveData v d = advanceCursor { d with gddram := Memory.write d.gddram i v } := by
  obtain ⟨hcol, hpage⟩ := h
  obtain ⟨hpend, -⟩ | ⟨-, hrange, -⟩ | ⟨-, hle, he⟩ := receiveData_cases v d
  · exact absurd hp hpend
  · omega
  · have haddr : (cursorAddr d).toNat = i := by rw [cursorAddr_toNat hle]; omega
    rw [he, haddr]

/-- Where no group is due the cursor is at the next index already, in either mode. -/
theorem CursorAfter.cursorAt {i : Nat} {d : Drf} (h : CursorAfter i d) (hi : i < 1024) (hdue : i % 128 ≠ 0) :
    CursorAt i d := by
  obtain ⟨hcol, hpage⟩ := h
  refine ⟨hcol, ?_⟩
  cases hm : d.addrMode <;> simp only [hm] at hpage <;> omega

/-! ## From index to index -/

theorem colCnt_ofNat {i : Nat} : (colCnt (BitVec.ofNat 10 i)).toNat = i % 128 := by
  simp [colCnt, BitVec.extractLsb'_toNat]

theorem pageCnt_ofNat {i : Nat} (h : i < 1024) : (pageCnt (BitVec.ofNat 10 i)).toNat = i / 128 := by
  simp [pageCnt, BitVec.extractLsb'_toNat, Nat.shiftRight_eq_div_pow]
  omega

theorem groupDue_ofNat {st : Stride} {i : Nat} (h : i < 1024) :
    groupDue st (BitVec.ofNat 10 i) = decide (i % strideColumns st = 0) := by
  rw [groupDue, BitVec.toNat_ofNat, Nat.mod_eq_of_lt h]
  rfl

/-- The position before index `i` of a flush, `IDLE` after the last (43_flush R184, R185). -/
def flushSeq (st : Stride) (i : Nat) : Seq :=
  if i = 1024 then .idle else .flush (if groupDue st (BitVec.ofNat 10 i) then .curLo else .data)

/-- The flush counter before index `i`, a free value after the last (10_state R23; log 8). -/
def flushIdx (free i : Nat) : RamAddr := if i = 1024 then Config.idxOutsideFlush free else BitVec.ofNat 10 i

/-- After the data byte at index `i` the sequencer stands before the next index, or in `IDLE`. -/
theorem flushNext_ofNat {s : State} {i : Nat} (hidx : s.fbc.idx = BitVec.ofNat 10 i) (hi : i < 1024) :
    flushNext s =
      { s with
        freeCount := if i + 1 = 1024 then s.freeCount + 1 else s.freeCount
        fbc := { s.fbc with idx := flushIdx s.freeCount (i + 1), seq := flushSeq s.stride (i + 1) } } := by
  have hlast : s.fbc.idx = 1023 ↔ i + 1 = 1024 := by rw [hidx]; bv_omega
  have hnext : s.fbc.idx + 1 = BitVec.ofNat 10 (i + 1) := by rw [hidx]; bv_omega
  by_cases h : i + 1 = 1024
  · simp only [flushNext, flushIdx, flushSeq, if_pos h, if_pos (hlast.mpr h)]
  · simp only [flushNext, flushIdx, flushSeq, if_neg h, if_neg fun hx => h (hlast.mp hx), hnext, apply_ite Seq.flush]

/-- A state `t` of a DISPLAY begun in `s`: at position `q` before index `i`, the bytes below `i` mirrored in the display
RAM, `n` transactions still to be delivered, and of DRF nothing changed but display RAM and cursor. -/
structure Mirroring (s : State) (rest : List Input) (q : Seq) (i n : Nat) (t : State) : Prop where
  seq : t.fbc.seq = q
  idx : i ≠ 1024 → t.fbc.idx = BitVec.ofNat 10 i
  free : t.fbc.inFlight = false
  fb : t.fbc.fb = s.fbc.fb
  stride : t.stride = s.stride
  inputs : t.inputs = List.replicate n .done ++ rest
  drf : ∃ g c p, t.drf = { s.drf with gddram := g, col := c, page := p }
  canonical : Memory.wf t.drf.gddram = true
  mirrored : ∀ a < i, Memory.read t.drf.gddram a = Memory.read s.fbc.fb a

section
variable {s t : State} {rest : List Input} {i n : Nat}

/-- The steps of a reposition group put the cursor at index `i`. -/
theorem Mirroring.group (h : Mirroring s rest (.flush .curLo) i (n + 3) t) (hp : s.drf.pending = none) (hi : i < 1024) :
    ∃ u, steps 3 t = .next u ∧ Mirroring s rest (.flush .data) i n u ∧ CursorAt i u.drf := by
  obtain ⟨g, c, p, hd⟩ := h.drf
  have hidx := h.idx (by omega)
  refine ⟨_, steps_flushGroup h.seq h.free (by rw [hd]; exact hp) (h.inputs.trans rfl),
    ⟨rfl, fun _ => hidx, h.free, h.fb, h.stride, rfl, ⟨g, _, _, by rw [hd]⟩, h.canonical, h.mirrored⟩, ?_⟩
  rw [hidx]
  exact ⟨colCnt_ofNat, pageCnt_ofNat hi⟩

/-- The step of the data byte mirrors it and goes on to the next index. -/
theorem Mirroring.data (h : Mirroring s rest (.flush .data) i (n + 1) t) (hp : s.drf.pending = none) (hi : i < 1024)
    (hc : CursorAt i t.drf) :
    ∃ u, step t = .next u ∧ Mirroring s rest (flushSeq s.stride (i + 1)) (i + 1) n u ∧ CursorAfter (i + 1) u.drf := by
  obtain ⟨g, c, p, hd⟩ := h.drf
  have hidx := h.idx (by omega)
  have hbyte : t.fbc.idx.toNat = i := by rw [hidx, BitVec.toNat_ofNat]; omega
  have hreceive := receiveData_at (v := Memory.read s.fbc.fb i) hi (by rw [hd]; exact hp) hc
  have hstep := (step_flushData h.seq h.free h.inputs).trans
    (congrArg Host.Outcome.next (flushNext_ofNat (by exact hidx) hi))
  rw [hbyte, h.fb, hreceive] at hstep
  obtain ⟨c', p', hmove⟩ :=
    advanceCursor_shape { t.drf with gddram := Memory.write t.drf.gddram i (Memory.read s.fbc.fb i) }
  refine ⟨_, hstep, ⟨by simp only [h.stride], fun hn => if_neg hn, h.free, h.fb, h.stride, rfl, ?_, ?_, ?_⟩, ?_⟩
  · exact ⟨_, c', p', by rw [hmove, hd]⟩
  · rw [advanceCursor_gddram]
    exact Memory.wf_write h.canonical hi
  · intro a ha
    rw [advanceCursor_gddram, Memory.read_write h.canonical]
    split
    · next he => rw [he]
    · exact h.mirrored a (by omega)
  · exact cursorAfter_advanceCursor hi hc

/-- The number of transactions for index `i`: the group where one is due, and the data byte (43_flush R184). -/
def indexCount (st : Stride) (i : Nat) : Nat := if i % strideColumns st = 0 then 4 else 1

/-- The steps of index `i` mirror its byte. -/
theorem Mirroring.index (h : Mirroring s rest (flushSeq s.stride i) i (indexCount s.stride i + n) t)
    (hp : s.drf.pending = none) (hi : i < 1024) (hc : 0 < i → CursorAfter i t.drf) :
    ∃ u, steps (indexCount s.stride i) t = .next u ∧
      Mirroring s rest (flushSeq s.stride (i + 1)) (i + 1) n u ∧ CursorAfter (i + 1) u.drf := by
  simp only [flushSeq, if_neg (by omega : i ≠ 1024), groupDue_ofNat hi, decide_eq_true_eq] at h
  by_cases hdue : i % strideColumns s.stride = 0
  · simp only [indexCount, if_pos hdue] at h ⊢
    rw [Nat.add_comm] at h
    obtain ⟨u, hu, hgroup, hcur⟩ := Mirroring.group (n := n + 1) h hp hi
    obtain ⟨v, hv, hdata⟩ := hgroup.data hp hi hcur
    exact ⟨v, by rw [steps_add (n := 1) hu, steps_succ hv]; rfl, hdata⟩
  · simp only [indexCount, if_neg hdue] at h ⊢
    rw [Nat.add_comm] at h
    have hcur : CursorAt i t.drf := by
      refine (hc (Nat.pos_of_ne_zero fun h0 => hdue (by rw [h0, Nat.zero_mod]))).cursorAt hi fun h128 => hdue ?_
      cases s.stride <;> simp only [strideColumns] <;> omega
    obtain ⟨u, hu, hdata⟩ := h.data hp hi hcur
    exact ⟨u, by rw [steps_succ hu]; rfl, hdata⟩

/-- The number of transactions of a DISPLAY for its last `k` indices (43_flush R183). -/
def flushLeft (st : Stride) (k : Nat) : Nat := k + 3 * (k / strideColumns st)

theorem flushLeft_all (st : Stride) : flushLeft st 1024 = flushCount st := by cases st <;> rfl

/-- One more index is one data byte, and a group where one is due. -/
theorem flushLeft_succ {st : Stride} {k : Nat} (hk : k < 1024) :
    flushLeft st (k + 1) = indexCount st (1023 - k) + flushLeft st k := by
  unfold flushLeft indexCount
  split
  · next h => cases st <;> simp only [strideColumns] at h ⊢ <;> omega
  · next h => cases st <;> simp only [strideColumns] at h ⊢ <;> omega

/-- The steps of the last `k` indices. -/
theorem Mirroring.run {k : Nat} (hk : k ≤ 1024)
    (h : Mirroring s rest (flushSeq s.stride (1024 - k)) (1024 - k) (flushLeft s.stride k) t)
    (hp : s.drf.pending = none) (hc : 0 < 1024 - k → CursorAfter (1024 - k) t.drf) :
    ∃ u, steps (flushLeft s.stride k) t = .next u ∧ Mirroring s rest .idle 1024 0 u ∧ CursorAfter 1024 u.drf := by
  induction k generalizing t with
  | zero =>
    have h0 : flushLeft s.stride 0 = 0 := by simp [flushLeft]
    rw [h0] at h ⊢
    exact ⟨t, rfl, h, hc (by decide)⟩
  | succ k ih =>
    rw [flushLeft_succ (by omega), show 1024 - (k + 1) = 1023 - k by omega] at h
    rw [show 1024 - (k + 1) = 1023 - k by omega] at hc
    rw [flushLeft_succ (by omega)]
    obtain ⟨u, hu, hnext, hcur⟩ := h.index hp (by omega) hc
    rw [show 1023 - k + 1 = 1024 - k by omega] at hnext hcur
    rw [steps_add hu]
    exact ih (by omega) hnext fun _ => hcur

end

/-! ## The whole operation -/

/-- The step in which an idle block accepts the host's word. -/
theorem step_hostWord {s : State} {w : OpWord} {prog : List OpWord} (h : presents s w prog) (ha : noArrival s = true) :
    step s = exec (decodeHost w) { s with program := prog } := by
  obtain ⟨hrest, hprog⟩ := h
  obtain ⟨hi, hc, -⟩ := (atRest_iff s).mp hrest
  simp [step, fetch_noArrival ha, fetchOwn, hi, hc, hprog]

theorem decodeHost_display (ign : BitVec 28) : decodeHost (hostWord 0x3 ign) = .display ign := by
  simp [decodeHost]

/-- A DISPLAY whose transactions are all delivered to a DRF with nothing pending ends in `IDLE` with the display RAM
equal to the framebuffer, the cursor after the last byte, and nothing else of DRF changed (43_flush R186). -/
theorem display_mirrors {ign : BitVec 28} {s : State} {prog : List OpWord} {rest : List Input}
    (hw : presents s (0x3#4 ++ ign) prog) (hb : s.fbc.busStarted = true) (hm : memoryOk s = true)
    (hp : s.drf.pending = none) (hi : s.inputs = List.replicate (flushCount s.stride) .done ++ rest) :
    ∃ t, steps (flushCount s.stride + 1) s = .next t ∧ Mirroring s rest .idle 1024 0 t ∧ CursorAfter 1024 t.drf := by
  obtain ⟨-, hgddram⟩ : Memory.wf s.fbc.fb = true ∧ Memory.wf s.drf.gddram = true := by simpa [memoryOk] using hm
  obtain ⟨hidle, -, hfree⟩ := (atRest_iff s).mp hw.1
  have ha : noArrival s = true := by rw [noArrival, hi]; cases s.stride <;> rfl
  have hstep : step s = exec (.display ign) { s with program := prog } :=
    decodeHost_display ign ▸ step_hostWord hw ha
  rw [steps_succ (hstep.trans (acceptBus_started hidle hb)), ← flushLeft_all]
  refine Mirroring.run (s := s) (k := 1024) (Nat.le_refl 1024) ?_ hp fun h0 => absurd h0 (by decide)
  exact {
    seq := by cases s.stride <;> rfl
    idx := fun _ => rfl
    free := hfree
    fb := rfl
    stride := rfl
    inputs := by rw [flushLeft_all]; exact hi
    drf := ⟨_, _, _, rfl⟩
    canonical := hgddram
    mirrored := fun a h0 => absurd h0 (by omega) }

/-- Settles O20: the panel shows the display RAM, and the display RAM mirrors the framebuffer. -/
theorem panelShowsFramebuffer : Obligations.PanelShowsFramebuffer := by
  unfold Obligations.PanelShowsFramebuffer
  intro ign s prog rest hw hb hm hp hon hlatches hi
  obtain ⟨t, ht, hmirror, -⟩ := display_mirrors hw hb hm hp hi
  obtain ⟨g, c, p, hd⟩ := hmirror.drf
  refine ⟨t, ht, by rw [hd]; exact hlatches, fun x y hx hy => ?_⟩
  have hlit : lit t.drf x y = pixel t.drf.gddram x y := by simp [lit, hd, hon]
  have hpixel : pixel t.drf.gddram x y = pixel s.fbc.fb x y := by
    simp only [pixel, Config.pageHeight, Config.width]
    rw [hmirror.mirrored _ (by omega)]
  rw [hlit, hpixel, hmirror.fb]
  exact ⟨rfl, rfl⟩

end Sys2Proof.Machine
end

section
/-! # Every step keeps both memories canonical (20_memory R60, R64)

The display RAM is written by a data transaction alone, the framebuffer by SET_PIXEL, CLEAR_DISPLAY and reset; each
writes through `Memory.write` or puts a canonical memory there. -/

namespace Sys2Proof.Machine

theorem memoryOk_iff (s : State) :
    memoryOk s = true ↔ Memory.wf s.fbc.fb = true ∧ Memory.wf s.drf.gddram = true := by
  simp [memoryOk]

/-! ## Receptions -/

/-- A reception that keeps the display RAM canonical keeps both memories canonical. -/
theorem memoryOk_drfNext {f : Drf → Drf} {s t : State} (hs : memoryOk s = true) (ht : drfNext f s = .next t)
    (hf : ∀ d, Memory.wf d.gddram = true → Memory.wf (f d).gddram = true) : memoryOk t = true := by
  cases ht
  obtain ⟨hfb, hram⟩ := (memoryOk_iff s).mp hs
  exact (memoryOk_iff _).mpr ⟨hfb, hf _ hram⟩

/-- A command byte leaves the display RAM as it was, opcode or parameter. -/
theorem commandByte_gddram {b : Byte} {f : Drf → Drf} (hf : ∀ d, (f d).gddram = d.gddram) (d : Drf) :
    (commandByte b f d).gddram = d.gddram := by
  cases h : d.pending with
  | none => rw [commandByte_none h, hf]
  | some op => rw [commandByte_some h, (parameterRule_frame op b _).1]

/-- So does a two-byte command. -/
theorem commandPair_gddram {op : ParamOp} {v : Byte} {f : Drf → Drf} (hf : ∀ d, (f d).gddram = d.gddram) (d : Drf) :
    (commandPair op v f d).gddram = d.gddram := by
  cases h : d.pending with
  | none => rw [commandPair_none h, hf]
  | some p => rw [commandPair_some h, receiveOpcode_gddram, (parameterRule_frame p _ _).1]

theorem memoryOk_commandByte {b : Byte} {f : Drf → Drf} {s t : State} (hs : memoryOk s = true)
    (ht : drfNext (commandByte b f) s = .next t) (hf : ∀ d, (f d).gddram = d.gddram) : memoryOk t = true :=
  memoryOk_drfNext hs ht fun d hd => by rw [commandByte_gddram hf]; exact hd

theorem memoryOk_commandPair {op : ParamOp} {v : Byte} {f : Drf → Drf} {s t : State} (hs : memoryOk s = true)
    (ht : drfNext (commandPair op v f) s = .next t) (hf : ∀ d, (f d).gddram = d.gddram) : memoryOk t = true :=
  memoryOk_drfNext hs ht fun d hd => by rw [commandPair_gddram hf]; exact hd

/-! ## Operation words and calls -/

theorem memoryOk_accept {s t u : State} (hs : memoryOk s = true) (ht : accept s u = .next t)
    (hu : memoryOk u = true) : memoryOk t = true := by
  obtain ⟨-, rfl⟩ | ⟨-, rfl⟩ := accept_cases ht
  · exact hu
  · exact hs

theorem memoryOk_raiseFbc {k : FbcFault} {w : OpWord} {s : State} (hs : memoryOk s = true) :
    memoryOk (raiseFbc k w s) = true := by
  simpa [memoryOk] using hs

theorem memoryOk_acceptBus {w : OpWord} {s t u : State} (hs : memoryOk s = true) (ht : acceptBus w s u = .next t)
    (hu : memoryOk u = true) : memoryOk t = true := by
  refine memoryOk_accept hs ht ?_
  split
  · exact hu
  · exact memoryOk_raiseFbc hs

/-- SET_PIXEL writes one byte inside the framebuffer. -/
theorem wf_plotPixel {x y color : Byte} {m : Memory} (h : Memory.wf m = true) :
    Memory.wf (plotPixel x y color m) = true :=
  Memory.wf_write h (pixelIndex x y).isLt

theorem memoryOk_setPixel {ign : BitVec 4} {x y color : Byte} {s t : State} (hs : memoryOk s = true)
    (ht : execSetPixel ign x y color s = .next t) : memoryOk t = true := by
  refine memoryOk_accept hs ht ?_
  obtain ⟨hfb, hram⟩ := (memoryOk_iff s).mp hs
  split
  · exact (memoryOk_iff _).mpr ⟨wf_plotPixel hfb, hram⟩
  · exact memoryOk_raiseFbc hs

theorem memoryOk_callPrimitive {es : List Event} {s t : State} (hs : memoryOk s = true)
    (ht : callPrimitive es s = .next t) : memoryOk t = true := by
  obtain ⟨hfb, hram⟩ := (memoryOk_iff s).mp hs
  have hkept : t.fbc.fb = s.fbc.fb := by
    by_cases hi : s.fbc.seq = .idle
    · rw [callPrimitive_idle hi] at ht
      cases ht
      exact callSteps_fb _ { s with calls := s.calls ++ es }
    · rw [callPrimitive_busy hi] at ht
      cases ht
      rfl
  exact (memoryOk_iff t).mpr ⟨hkept ▸ hfb, callPrimitive_wf hram ht⟩

/-! ## Instructions and steps -/

/-- Every instruction keeps both memories canonical. -/
theorem memoryOk_exec {i : Instr} {s t : State} (hs : memoryOk s = true) (ht : exec i s = .next t) :
    memoryOk t = true := by
  cases i with
  | init => exact memoryOk_accept hs ht hs
  | setPixel => exact memoryOk_setPixel hs ht
  | clearDisplay =>
    exact memoryOk_accept hs ht ((memoryOk_iff _).mpr ⟨Memory.wf_fill 0, ((memoryOk_iff s).mp hs).2⟩)
  | display | setPageMode | setHorizontalMode | setPowerOn | setPowerOff => exact memoryOk_acceptBus hs ht hs
  | hostReserved0 | hostReserved9 | hostReservedA | hostReservedB | hostReservedC | hostReservedD | hostReservedE
  | hostReservedF => exact memoryOk_accept hs ht (memoryOk_raiseFbc hs)
  | sendCommand | sendData | setCursorXY => exact memoryOk_callPrimitive hs ht
  | txnCommand p => exact memoryOk_drfNext hs ht fun d hd => by rw [receiveCommand_gddram]; exact hd
  | txnData v => exact memoryOk_drfNext hs ht fun d hd => receive_wf (t := dataTxn v) hd
  | txnReservedCtrl => exact memoryOk_drfNext hs ht fun d hd => by rw [raiseDrf_gddram]; exact hd
  | txnOtherAddress => exact memoryOk_drfNext (f := fun d => d) hs ht fun d hd => hd
  | setColLow | setColHigh | setPage | stopScroll | startLine | segRemap | displayAllOnResume | normalDisplay
  | displayOff | displayOn | comScanDir => exact memoryOk_commandByte hs ht fun d => rfl
  | setAddrMode v => exact memoryOk_commandPair hs ht fun d => (parameterRule_frame .addrMode v d).1
  | setContrast | chargePump | setMuxRatio | setDisplayOffset | setClockDiv | setPrecharge | setComPins
  | setVcomLevel => exact memoryOk_commandPair hs ht fun d => rfl
  | _ => exact memoryOk_commandByte hs ht fun d => raiseDrf_gddram _ _ d

theorem memoryOk_callStep {s : State} (hs : memoryOk s = true) : memoryOk (callStep s).1 = true := by
  obtain ⟨hfb, hram⟩ := (memoryOk_iff s).mp hs
  exact (memoryOk_iff _).mpr ⟨by rw [← callSteps_one, callSteps_fb]; exact hfb, callStep_wf hram⟩

theorem memoryOk_sequencerStep {s : State} (hs : memoryOk s = true) : memoryOk (sequencerStep s) = true := by
  obtain ⟨hfb, hram⟩ := (memoryOk_iff s).mp hs
  refine (memoryOk_iff _).mpr ⟨by rw [sequencerStep_fb]; exact hfb, ?_⟩
  obtain ⟨-, h⟩ | ⟨e, -, -, h⟩ | ⟨e, -, -, h⟩ := sequencerStep_cases s <;> rw [h]
  · rw [seqAdvance_drf]; exact hram
  · exact transact_wf hram
  · rw [seqAdvance_drf]; exact transact_wf hram

/-- Both memories of the state in a fetch are canonical. -/
def Fetch.memoryOk : Fetch → Bool
  | .run _ s => Machine.memoryOk s
  | .move s => Machine.memoryOk s
  | .bad _ => true

theorem fetchOwn_memoryOk {s : State} (hs : memoryOk s = true) : (fetchOwn s).memoryOk = true := by
  obtain ⟨-, h⟩ | ⟨-, -, h⟩ | ⟨-, -, w, rest, -, h⟩ | ⟨-, -, -, h⟩ := fetchOwn_cases s <;> rw [h]
  · exact memoryOk_sequencerStep hs
  · exact memoryOk_callStep hs
  · exact hs
  · exact hs

theorem fetchCommand_memoryOk {bytes : List Byte} {s : State} (hs : memoryOk s = true) :
    (fetchCommand bytes s).memoryOk = true := by
  unfold fetchCommand
  split <;> exact hs

theorem fetchCall_memoryOk {r : Decoded Instr} {s : State} (hs : memoryOk s = true) :
    (fetchCall r s).memoryOk = true := by
  cases r with
  | ok i => exact hs
  | reject e => rfl

/-- Fetching takes an arrival or a word from its list, resets, or lets the block move by itself. -/
theorem fetch_memoryOk {s : State} (hs : memoryOk s = true) : (fetch s).memoryOk = true := by
  unfold fetch
  split
  case h_1 draw _ _ => exact (resetMeetsInvariants draw).1
  case h_2 => exact hs
  case h_3 => exact fetchCommand_memoryOk hs
  case h_4 => exact fetchCall_memoryOk hs
  case h_5 => exact fetchCall_memoryOk hs
  case h_6 => exact fetchOwn_memoryOk hs

theorem memoryOk_step {s t : State} (hs : memoryOk s = true) (ht : step s = .next t) : memoryOk t = true := by
  have hfetch := fetch_memoryOk hs
  obtain ⟨i, u, hrun, he⟩ | hmove := step_cases ht
  · rw [hrun] at hfetch
    exact memoryOk_exec hfetch he
  · rw [hmove] at hfetch
    exact hfetch

/-- Settles O44: every instruction keeps both memories canonical, and so does every move of the block by itself. -/
theorem stepKeepsMemoryCanonical : Obligations.StepKeepsMemoryCanonical := by
  unfold Obligations.StepKeepsMemoryCanonical
  exact fun s t hs ht => memoryOk_step hs ht

end Sys2Proof.Machine
end

section
/-! # DRF is the fold of reception over the completed events (20_memory R70, R73)

Under `bus_ok` an event that the transport completes has reached DRF, so every emission moves DRF and the completed
events together; without other traffic nothing else moves either of them but a reset. -/

namespace Sys2Proof.Machine

/-! ## An emission -/

/-- Under `bus_ok` a completed event has reached DRF, and an event that is held has not; no answer to come is a loss. -/
theorem settle_busOk {s : State} (hb : busOk s = true) (e : Event) :
    busOk (settle e s).1 = true ∧ (settle e s).1.drf = if (settle e s).2 then deliver e s.drf else s.drf := by
  obtain ⟨rest, hi, h⟩ | ⟨rest, hi, h⟩ | ⟨rest, hi, h⟩ | h := settle_cases e s <;> rw [h]
  · exact ⟨by simp_all [busOk], rfl⟩
  · simp [busOk, hi] at hb
  · exact ⟨by simp_all [busOk], rfl⟩
  · exact ⟨hb, rfl⟩

theorem transact_busOk {s : State} (hb : busOk s = true) (e : Event) :
    busOk (transact e s).1 = true ∧ (transact e s).1.drf = if (transact e s).2 then deliver e s.drf else s.drf := by
  cases h : s.fbc.inFlight with
  | true => rw [transact_held h]; exact settle_busOk hb e
  | false => rw [transact_free h]; exact settle_busOk (s := launch e s) hb e

/-- Emitting or holding the event whose turn it is keeps DRF the fold over the completed events. -/
theorem transact_drf_fold {start : Drf} {s : State} {e : Event} (hb : busOk s = true) (h : drfIsFold start s)
    (hc : currentEvent s = some e) :
    (transact e s).1.drf = (settledTrace (transact e s).1.fbc).foldl (fun d e => deliver e d) start := by
  obtain ⟨hok, hfold⟩ := h
  rw [(transact_busOk hb e).2]
  cases hdone : (transact e s).2 with
  | true => rw [settledTrace_transact_done hok hc hdone, List.foldl_append, ← hfold]; rfl
  | false => rw [settledTrace_transact_held hdone, ← hfold]; rfl

/-! ## A bench's calls and the sequencer -/

theorem drfIsFold_callStep {start : Drf} {s : State} (hb : busOk s = true) (hi : s.fbc.seq = .idle)
    (h : drfIsFold start s) : drfIsFold start (callStep s).1 := by
  refine ⟨inFlightOk_callStep hi h.1, ?_⟩
  have hemit {e : Event} {rest : List Event} (hc : s.calls = e :: rest) :=
    transact_drf_fold hb h (e := e) (by rw [currentEvent_idle hi, hc]; rfl)
  obtain ⟨-, he⟩ | ⟨e, rest, hc, -, he⟩ | ⟨e, rest, hc, -, he⟩ := callStep_cases s <;> rw [he]
  · exact h.2
  · exact hemit hc
  · exact hemit hc

theorem busOk_callStep {s : State} (hb : busOk s = true) : busOk (callStep s).1 = true := by
  obtain ⟨-, he⟩ | ⟨e, _, _, -, he⟩ | ⟨e, _, _, -, he⟩ := callStep_cases s <;> rw [he]
  · exact hb
  · exact (transact_busOk hb e).1
  · exact (transact_busOk hb e).1

theorem callStep_idle {s : State} (hi : s.fbc.seq = .idle) : (callStep s).1.fbc.seq = .idle := by
  obtain ⟨_, _, h⟩ := callStep_fbc s
  rw [h]
  exact hi

theorem drfIsFold_callSteps {start : Drf} {s : State} (n : Nat) (hb : busOk s = true) (hi : s.fbc.seq = .idle)
    (h : drfIsFold start s) : drfIsFold start (callSteps n s) :=
  (callSteps_induct (P := fun t => busOk t = true ∧ t.fbc.seq = .idle ∧ drfIsFold start t)
    (fun _ ⟨hb, hi, h⟩ => ⟨busOk_callStep hb, callStep_idle hi, drfIsFold_callStep hb hi h⟩) n s ⟨hb, hi, h⟩).2.2

/-- A bench's call, waiting or going on at once, keeps DRF the fold. -/
theorem drfIsFold_callPrimitive {start : Drf} {es : List Event} {rest : List Input} {s t : State}
    (hb : busOk { s with inputs := rest } = true) (h : drfIsFold start s)
    (ht : callPrimitive es { s with inputs := rest } = .next t) : drfIsFold start t := by
  have hjoin : drfIsFold start (joinCall es rest s) := ⟨inFlightOk_joinCall h.1, h.2⟩
  by_cases hi : s.fbc.seq = .idle
  · rw [callPrimitive_idle (by exact hi)] at ht
    cases ht
    exact drfIsFold_callSteps _ hb hi hjoin
  · rw [callPrimitive_busy (by exact hi)] at ht
    cases ht
    exact hjoin

theorem drfIsFold_sequencerStep {start : Drf} {s : State} (hb : busOk s = true) (hq : s.fbc.seq ≠ .idle)
    (h : drfIsFold start s) : drfIsFold start (sequencerStep s) := by
  refine ⟨inFlightOk_sequencerStep hq h.1, ?_⟩
  have hprep : drfIsFold start { s with fbc := seqPrepare s.fbc } :=
    ⟨inFlightOk_prepare h.1, by rw [settledTrace_prepare]; exact h.2⟩
  have hemit {e : Event} (hn : seqEvent s.fbc = some e) :=
    transact_drf_fold (s := { s with fbc := seqPrepare s.fbc }) hb hprep (e := e)
      (by rw [currentEvent_busy (by simpa using hq), seqEvent_prepare, hn])
  obtain ⟨-, he⟩ | ⟨e, hn, -, he⟩ | ⟨e, hn, -, he⟩ := sequencerStep_cases s <;> rw [he]
  · simpa using hprep.2
  · exact hemit hn
  · simpa using hemit hn

/-! ## Steps -/

/-- A bench's call that does not stop the machine joins its events to the calls. -/
theorem callPrimitive_of_fetchCall {r : Decoded Instr} {s t : State}
    (hr : ∀ i, r = .ok i → ∃ es, ∀ s, exec i s = callPrimitive es s) (h : runFetch (fetchCall r s) = .next t) :
    ∃ es, callPrimitive es s = .next t := by
  cases r with
  | ok i => obtain ⟨es, he⟩ := hr i rfl; exact ⟨es, (he s).symm.trans h⟩
  | reject e => cases h

/-- With no other traffic at DRF an arrival is a reset or a bench's call. -/
theorem step_arrival {s t : State} (hq : noTraffic s = true) (ha : noArrival s = false) (ht : step s = .next t) :
    (∃ width height draw rest, s.inputs = .reset width height draw :: rest ∧
      t = construct width height draw { s with inputs := rest }) ∨
    (noReset s = true ∧ ∃ x rest es, s.inputs = x :: rest ∧ callPrimitive es { s with inputs := rest } = .next t) := by
  cases hi : s.inputs with
  | nil => simp [noArrival, hi] at ha
  | cons x rest =>
    rw [step_eq_runFetch] at ht
    cases x <;> simp only [fetch, hi] at ht
    case reset width height draw => cases ht; exact .inl ⟨width, height, draw, rest, rfl, rfl⟩
    case txn => simp [noTraffic, hi] at hq
    case command => simp [noTraffic, hi] at hq
    case callSend =>
      obtain ⟨es, hes⟩ := callPrimitive_of_fetchCall (fun _ => exec_decodeSend) ht
      exact .inr ⟨by simp [noReset, hi], _, rest, es, rfl, hes⟩
    case callCursor =>
      obtain ⟨es, hes⟩ := callPrimitive_of_fetchCall (fun _ => exec_decodeCursor) ht
      exact .inr ⟨by simp [noReset, hi], _, rest, es, rfl, hes⟩
    all_goals simp [noArrival, hi, Input.isAnswer] at ha

/-- What the block does by itself keeps DRF the fold. -/
theorem drfIsFold_step_own {start : Drf} {s t : State} (hb : busOk s = true) (ha : noArrival s = true)
    (h : drfIsFold start s) (ht : step s = .next t) : drfIsFold start t := by
  refine ⟨inFlightOk_step h.1 ht, ?_⟩
  cases stepCase_of_step ht with
  | reset _ _ _ _ arrival => simp [noArrival, arrival, Input.isAnswer] at ha
  | received _ _ arrival => simp [ha] at arrival
  | called _ _ _ arrival => simp [ha] at arrival
  | sequencer _ busy => exact (drfIsFold_sequencerStep hb busy h).2
  | calls _ idle => exact (drfIsFold_callStep hb idle h).2
  | host _ _ _ _ _ _ word => rw [word.drf_eq, word.mode_frame.1]; exact h.2
  | quiet => exact h.2

/-- A reset is an arrival. -/
theorem noReset_of_noArrival {s : State} (ha : noArrival s = true) : noReset s = true := by
  unfold noReset
  split
  · next hi => simp [noArrival, hi, Input.isAnswer] at ha
  · rfl

/-- Settles O48: the block's own steps and a bench's calls keep the fold; after a reset the trace is empty. -/
theorem stepKeepsDrfFold : Obligations.StepKeepsDrfFold := by
  unfold Obligations.StepKeepsDrfFold
  intro start s t hb hq h ht
  cases ha : noArrival s with
  | true => rw [if_pos (noReset_of_noArrival ha)]; exact drfIsFold_step_own hb ha h ht
  | false =>
    obtain ⟨width, height, draw, rest, hi, rfl⟩ | ⟨hr, x, rest, es, hi, hcall⟩ := step_arrival hq ha ht
    · have hr : ¬ noReset s = true := by simp [noReset, hi]
      rw [if_neg hr]
      exact ⟨rfl, rfl⟩
    · rw [if_pos hr]
      have hbrest : busOk { s with inputs := rest } = true := by simp_all [busOk]
      exact drfIsFold_callPrimitive hbrest h hcall

end Sys2Proof.Machine
end

section
/-! # A bench's call waits for its turn, and none of its events is lost or emitted twice (20_memory R70; log 13)

Trace and events still to emit are one list: joining a call appends to it, and a step of the calls moves at most one
event from its second part to its first. -/

namespace Sys2Proof.Machine

/-! ## What is still to emit -/

theorem unsentCalls_busy {s : State} (h : s.fbc.seq ≠ .idle) : unsentCalls s = s.calls := by
  simp [unsentCalls, h]

theorem unsentCalls_idle {s : State} (h : s.fbc.seq = .idle) :
    unsentCalls s = if s.fbc.inFlight then s.calls.tail else s.calls := by
  simp [unsentCalls, h]

/-- In `IDLE` an event in flight is the first of the calls. -/
theorem calls_ne_nil_of_inFlight {s : State} (hok : inFlightOk s = true) (hi : s.fbc.seq = .idle)
    (hf : s.fbc.inFlight = true) : s.calls ≠ [] := by
  obtain ⟨e, hc, -⟩ := (inFlightOk_iff s).mp hok hf
  rw [currentEvent_idle hi] at hc
  exact List.ne_nil_of_mem (List.mem_of_head? hc)

/-- A call that joins the calls has all its events still to emit, after those of the calls before it. -/
theorem unsentCalls_joinCall {es : List Event} {rest : List Input} {s : State} (hok : inFlightOk s = true) :
    unsentCalls (joinCall es rest s) = unsentCalls s ++ es := by
  by_cases hi : s.fbc.seq = .idle
  · rw [unsentCalls_idle (by exact hi), unsentCalls_idle hi]
    cases hf : s.fbc.inFlight with
    | true => simp [joinCall, hf, List.tail_append_of_ne_nil (calls_ne_nil_of_inFlight hok hi hf)]
    | false => simp [joinCall, hf]
  · rw [unsentCalls_busy (by exact hi), unsentCalls_busy hi]
    rfl

/-- A step of the calls drops no event and emits none twice. -/
theorem callStep_conserves {s : State} (hi : s.fbc.seq = .idle) :
    (callStep s).1.fbc.trace ++ unsentCalls (callStep s).1 = s.fbc.trace ++ unsentCalls s := by
  rw [unsentCalls_idle (callStep_idle hi), unsentCalls_idle hi]
  obtain ⟨-, he⟩ | ⟨e, rest, hc, hdone, he⟩ | ⟨e, rest, hc, hdone, he⟩ := callStep_cases s <;> rw [he]
  · cases hf : s.fbc.inFlight <;> simp [hc, hdone, hf]
  · cases hf : s.fbc.inFlight <;> simp [hc, hdone, hf]

theorem callSteps_conserve {s : State} (n : Nat) (hi : s.fbc.seq = .idle) :
    (callSteps n s).fbc.trace ++ unsentCalls (callSteps n s) = s.fbc.trace ++ unsentCalls s :=
  (callSteps_induct
    (P := fun t => t.fbc.seq = .idle ∧ t.fbc.trace ++ unsentCalls t = s.fbc.trace ++ unsentCalls s)
    (fun _ ⟨hi, h⟩ => ⟨callStep_idle hi, (callStep_conserves hi).trans h⟩) n s ⟨hi, rfl⟩).2

/-! ## A call and the steps in which it goes on -/

/-- A call adds exactly its own events, whether it waits or goes on at once. -/
theorem callPrimitive_conserves {es : List Event} {s : State} (hok : inFlightOk s = true) :
    ∃ t, callPrimitive es s = .next t ∧ inFlightOk t = true ∧
      t.fbc.trace ++ unsentCalls t = s.fbc.trace ++ unsentCalls s ++ es := by
  have hjoined := inFlightOk_joinCall (es := es) (rest := s.inputs) hok
  have hunsent : (joinCall es s.inputs s).fbc.trace ++ unsentCalls (joinCall es s.inputs s) =
      s.fbc.trace ++ unsentCalls s ++ es := by
    rw [unsentCalls_joinCall hok, List.append_assoc]
    rfl
  by_cases hi : s.fbc.seq = .idle
  · exact ⟨_, callPrimitive_idle hi, inFlightOk_callSteps (s := joinCall es s.inputs s) hi hjoined,
      (callSteps_conserve (s := joinCall es s.inputs s) _ hi).trans hunsent⟩
  · exact ⟨_, callPrimitive_busy hi, hjoined, hunsent⟩

/-- A step of the calls takes no word of the host. -/
theorem callStep_program (s : State) : (callStep s).1.program = s.program := by
  obtain ⟨-, h⟩ | ⟨e, _, _, -, h⟩ | ⟨e, _, _, -, h⟩ := callStep_cases s <;> rw [h]
  · exact (transact_frame e s).2.1
  · exact (transact_frame e s).2.1

/-- The payloads of setCursorXY as numbers (30_encoding R100). -/
theorem cursorPayloads (cu pg : BitVec 4) :
    colLowByte (unitColumn cu) = BitVec.ofNat 8 (8 * cu.toNat % 16) ∧
      colHighByte (unitColumn cu) = BitVec.ofNat 8 (0x10 + 8 * cu.toNat / 16) ∧
      pageByte pg = BitVec.ofNat 8 (0xB0 + pg.toNat) := by
  have hcolumn : ∀ cu : BitVec 4, colLowByte (unitColumn cu) = BitVec.ofNat 8 (8 * cu.toNat % 16) ∧
      colHighByte (unitColumn cu) = BitVec.ofNat 8 (0x10 + 8 * cu.toNat / 16) := by decide
  have hpage : ∀ pg : BitVec 4, pageByte pg = BitVec.ofNat 8 (0xB0 + pg.toNat) := by decide
  exact ⟨(hcolumn cu).1, (hcolumn cu).2, hpage pg⟩

/-- setCursorXY is the call of its three transactions (40_bus_primitives R132). -/
theorem exec_setCursorXY (cu pg : BitVec 4) (s : State) :
    exec (.setCursorXY cu pg) s =
      callPrimitive
        [ .txn ⟨0x3C, 0x80, BitVec.ofNat 8 (8 * cu.toNat % 16)⟩,
          .txn ⟨0x3C, 0x80, BitVec.ofNat 8 (0x10 + 8 * cu.toNat / 16)⟩,
          .txn ⟨0x3C, 0x80, BitVec.ofNat 8 (0xB0 + pg.toNat)⟩ ] s := by
  obtain ⟨hlow, hhigh, hpage⟩ := cursorPayloads cu pg
  rw [← hlow, ← hhigh, ← hpage]
  rfl

/-- Settles O26: each primitive is a call, a call joins its events, and the steps of the calls conserve them. -/
theorem primitivesWaitForTheirTurn : Obligations.PrimitivesWaitForTheirTurn := by
  unfold Obligations.PrimitivesWaitForTheirTurn
  refine ⟨fun v cu pg s i es hmem => ?_, fun s t ha hi hc hok ht => ?_⟩
  · have hcall : exec i s = callPrimitive es s := by
      simp only [List.mem_cons, List.not_mem_nil, or_false, Prod.mk.injEq] at hmem
      obtain ⟨rfl, rfl⟩ | ⟨rfl, rfl⟩ | ⟨rfl, rfl⟩ := hmem
      · rfl
      · rfl
      · exact exec_setCursorXY cu pg s
    rw [hcall]
    exact ⟨callPrimitive_busy, callPrimitive_conserves⟩
  · rw [step_calls ha hi hc] at ht
    cases ht
    exact ⟨callStep_conserves hi, callStep_idle hi, callStep_program s⟩

end Sys2Proof.Machine
end

section
/-! # Every operation ends, under `bus_progress` (20_memory R74, 43_flush R183)

`seqWork` counts the events from the sequencer's position to `IDLE`, at most those of the longest operation.  Each
answer of the transport is one step, and each completion takes one event from the count. -/

namespace Sys2Proof.Machine

/-! ## The events left to a position -/

/-- The events of a flush from the data byte at an index on. -/
def flushWork (st : Stride) (idx : RamAddr) : Nat := 1 + flushLeft st (1023 - idx.toNat)

/-- The events a position and those after it emit, before the sequencer is in `IDLE`. -/
def seqWork (st : Stride) (f : Fbc) : Nat :=
  match f.seq with
  | .idle => 0
  | .initCfg sda scl => (if pinsSupplied sda scl then 1 else 0) + 1 + initVector.length
  | .initStart => 1 + initVector.length
  | .initSend k => initVector.length - k
  | .flush .curLo => 3 + flushWork st f.idx
  | .flush .curHi => 2 + flushWork st f.idx
  | .flush .curPg => 1 + flushWork st f.idx
  | .flush .data => flushWork st f.idx
  | .mode _ k => 2 - k
  | .power _ => 1

theorem seqWork_congr {st : Stride} {f g : Fbc} (hq : g.seq = f.seq) (hx : g.idx = f.idx) :
    seqWork st g = seqWork st f := by
  simp only [seqWork, hq, hx]

theorem flushWork_le (st : Stride) (idx : RamAddr) : flushWork st idx ≤ 1405 := by
  unfold flushWork flushLeft
  cases st <;> simp only [strideColumns] <;> omega

/-- No position has more events left than the longest operation has (43_flush R183). -/
theorem seqWork_le (st : Stride) (f : Fbc) : seqWork st f ≤ 1408 := by
  have hflush := flushWork_le st f.idx
  have hinit : initVector.length = 26 := rfl
  unfold seqWork
  split
  case h_2 => split <;> omega
  all_goals omega

/-- Before an index a flush has the events of that index and of those after it left. -/
theorem seqWork_beforeIndex {st : Stride} {f : Fbc}
    (hq : f.seq = if groupDue st f.idx then .flush .curLo else .flush .data) :
    seqWork st f = indexCount st f.idx.toNat + flushLeft st (1023 - f.idx.toNat) := by
  by_cases hdue : groupDue st f.idx = true
  · have hcount : indexCount st f.idx.toNat = 4 := if_pos (by simpa [groupDue] using hdue)
    rw [if_pos hdue] at hq
    simp only [seqWork, hq, flushWork, hcount]
    omega
  · have hcount : indexCount st f.idx.toNat = 1 := if_neg (by simpa [groupDue] using hdue)
    rw [if_neg hdue] at hq
    simp only [seqWork, hq, flushWork, hcount]

/-- Every position of a flush has an event. -/
theorem seqEvent_flush {f : Fbc} {ph : Phase} (hq : f.seq = .flush ph) : (seqEvent f).isSome := by
  cases ph <;> simp [seqEvent, hq]

/-- After the data byte of an index the flush has one event less to send, and is over or has an event. -/
theorem seqWork_flushNext (s : State) :
    seqWork s.stride (flushNext s).fbc + 1 = flushWork s.stride s.fbc.idx ∧
      ((flushNext s).fbc.seq = .idle ∨ (seqEvent (flushNext s).fbc).isSome) := by
  by_cases hlast : s.fbc.idx = 1023
  · have hwork : flushWork s.stride s.fbc.idx = 1 := by rw [hlast]; cases s.stride <;> rfl
    have hseq : (flushNext s).fbc.seq = .idle := by simp [flushNext, hlast]
    exact ⟨by rw [hwork, seqWork, hseq], .inl hseq⟩
  · have hidx : (flushNext s).fbc.idx = s.fbc.idx + 1 := by simp only [flushNext, if_neg hlast]
    have hseq : (flushNext s).fbc.seq =
        if groupDue s.stride (flushNext s).fbc.idx then .flush .curLo else .flush .data := by
      simp only [flushNext, if_neg hlast]
    have hnext : (s.fbc.idx + 1).toNat = s.fbc.idx.toNat + 1 := by bv_omega
    have hleft := flushLeft_succ (st := s.stride) (k := 1022 - s.fbc.idx.toNat) (by omega)
    rw [show 1022 - s.fbc.idx.toNat + 1 = 1023 - s.fbc.idx.toNat by bv_omega,
      show 1023 - (1022 - s.fbc.idx.toNat) = s.fbc.idx.toNat + 1 by bv_omega] at hleft
    refine ⟨?_, .inr ?_⟩
    · rw [seqWork_beforeIndex hseq, hidx, hnext, flushWork, hleft,
        show 1023 - (s.fbc.idx.toNat + 1) = 1022 - s.fbc.idx.toNat by omega]
      omega
    · rw [← apply_ite Seq.flush] at hseq
      exact seqEvent_flush hseq

/-- Going on from a position with an event leaves one event less, and ends in `IDLE` or at a position with an event. -/
theorem seqWork_advance {s : State} (he : (seqEvent s.fbc).isSome) :
    seqWork s.stride (seqAdvance s).fbc + 1 = seqWork s.stride s.fbc ∧
      ((seqAdvance s).fbc.seq = .idle ∨ (seqEvent (seqAdvance s).fbc).isSome) := by
  obtain ⟨fbc, drf, stride, program, calls, inputs, freeCount⟩ := s
  obtain ⟨fb, modeFlag, idx, seq, busStarted, pins, fCoord, fBadop, fBusNotStarted, trace, inFlight⟩ := fbc
  cases seq with
  | idle => cases he
  | initCfg sda scl =>
    have hpins : pinsSupplied sda scl = true := by
      cases h : pinsSupplied sda scl with
      | true => rfl
      | false => simp [seqEvent, h] at he
    refine ⟨?_, .inr rfl⟩
    simp only [seqWork, hpins]
    rfl
  | initStart => exact ⟨rfl, .inr rfl⟩
  | initSend k =>
    have hk : k < initVector.length := by simpa [seqEvent] using he
    by_cases hmore : k + 1 < initVector.length
    · refine ⟨?_, .inr (by simp [seqAdvance, hmore, seqEvent])⟩
      simp only [seqWork, seqAdvance, if_pos hmore]
      omega
    · refine ⟨?_, .inl (if_neg hmore)⟩
      simp only [seqWork, seqAdvance, if_neg hmore]
      omega
  | flush ph =>
    cases ph with
    | curLo | curHi | curPg => exact ⟨by simp only [seqWork, seqAdvance, enter]; omega, .inr rfl⟩
    | data => exact seqWork_flushNext _
  | mode t k =>
    by_cases hk : k = 0
    · subst hk; exact ⟨rfl, .inr rfl⟩
    · obtain rfl : k = 1 := by omega
      exact ⟨rfl, .inl rfl⟩
  | power b => exact ⟨rfl, .inl rfl⟩

/-! ## One answer of the transport -/

/-- An emission takes one answer, and is complete when the answer says so. -/
theorem settle_answer {e : Event} {s : State} {x : Input} {rest : List Input} (hi : s.inputs = x :: rest)
    (hx : x.isAnswer = true) : (settle e s).1.inputs = rest ∧ (settle e s).2 = x.completes := by
  cases x
  case done | lost | wait => simp [settle, hi, Input.completes]
  all_goals cases hx

theorem transact_answer {e : Event} {s : State} {x : Input} {rest : List Input} (hi : s.inputs = x :: rest)
    (hx : x.isAnswer = true) : (transact e s).1.inputs = rest ∧ (transact e s).2 = x.completes := by
  cases h : s.fbc.inFlight with
  | true => rw [transact_held h]; exact settle_answer hi hx
  | false => rw [transact_free h]; exact settle_answer (s := launch e s) hi hx

@[simp] theorem transact_program (e : Event) (s : State) : (transact e s).1.program = s.program :=
  (transact_frame e s).2.1

@[simp] theorem seqAdvance_program (s : State) : (seqAdvance s).program = s.program := by
  obtain ⟨_, _, _, _, h⟩ := seqAdvance_shape s; rw [h]
@[simp] theorem seqAdvance_inputs (s : State) : (seqAdvance s).inputs = s.inputs := by
  obtain ⟨_, _, _, _, h⟩ := seqAdvance_shape s; rw [h]

/-- Every step of the sequencer leaves the stride and the host's words. -/
theorem sequencerStep_frame (s : State) :
    (sequencerStep s).stride = s.stride ∧ (sequencerStep s).program = s.program := by
  obtain ⟨_, h⟩ | ⟨_, _, _, h⟩ | ⟨_, _, _, h⟩ := sequencerStep_cases s <;> simp [h]

/-- What an answer does at a position with an event: a completion takes the event from the count, a wait leaves the
position as it is. -/
theorem sequencerStep_answer {s : State} {x : Input} {rest : List Input} (he : (seqEvent s.fbc).isSome)
    (hi : s.inputs = x :: rest) (hx : x.isAnswer = true) :
    (sequencerStep s).inputs = rest ∧
      seqWork s.stride (sequencerStep s).fbc + (if x.completes then 1 else 0) = seqWork s.stride s.fbc ∧
      ((sequencerStep s).fbc.seq = .idle ∨ (seqEvent (sequencerStep s).fbc).isSome) := by
  have hans (e : Event) := transact_answer (e := e) (s := { s with fbc := seqPrepare s.fbc }) hi hx
  have hevent (e : Event) : seqEvent (transact e { s with fbc := seqPrepare s.fbc }).1.fbc = seqEvent s.fbc :=
    seqEvent_congr (by simp) (by simp) (by simp)
  have hwork (e : Event) :
      seqWork s.stride (transact e { s with fbc := seqPrepare s.fbc }).1.fbc = seqWork s.stride s.fbc :=
    seqWork_congr (by simp) (by simp)
  obtain ⟨hn, h⟩ | ⟨e, hn, hdone, h⟩ | ⟨e, hn, hdone, h⟩ := sequencerStep_cases s
  · rw [hn] at he; cases he
  all_goals
    obtain ⟨hrest, hcompletes⟩ := hans e
    rw [h, ← hcompletes, hdone]
  · exact ⟨hrest, hwork e, .inr (by rw [hevent]; exact he)⟩
  · obtain ⟨hless, hgo⟩ := seqWork_advance (s := (transact e { s with fbc := seqPrepare s.fbc }).1)
      (by rw [hevent]; exact he)
    rw [transact_stride, hwork] at hless
    exact ⟨by rw [seqAdvance_inputs, hrest], hless, hgo⟩

/-! ## To the end -/

/-- A transport that completes `n` transactions completes fewer, too. -/
theorem busProgress_mono {m n : Nat} {s t : State} (hi : t.inputs = s.inputs) (hmn : m ≤ n)
    (h : busProgress n s = true) : busProgress m t = true := by
  simp only [busProgress, hi, decide_eq_true_eq] at h ⊢
  omega

/-- A transport that has a completion to come answers next, and an answer that completes leaves one completion less. -/
theorem busProgress_answer {n : Nat} {s : State} (hn : 0 < n) (h : busProgress n s = true) :
    ∃ x rest, s.inputs = x :: rest ∧ x.isAnswer = true ∧
      ∀ (m : Nat) (t : State), m + (if x.completes then 1 else 0) = n → t.inputs = rest → busProgress m t = true := by
  simp only [busProgress, decide_eq_true_eq] at h ⊢
  cases hi : s.inputs with
  | nil => simp [hi] at h; omega
  | cons x rest =>
    cases hx : x.isAnswer with
    | false => simp [hi, hx] at h; omega
    | true =>
      simp only [hi, List.takeWhile_cons, hx, if_true, List.countP_cons] at h
      exact ⟨x, rest, rfl, hx, fun m t hm ht => by rw [ht]; omega⟩

/-- The next input is no arrival where the transport has a completion to come. -/
theorem noArrival_of_busProgress {n : Nat} {s : State} (hn : 0 < n) (h : busProgress n s = true) :
    noArrival s = true := by
  obtain ⟨x, rest, hi, hx, -⟩ := busProgress_answer hn h
  simp [noArrival, hi, hx]

theorem seq_ne_idle_of_event {f : Fbc} (he : (seqEvent f).isSome) : f.seq ≠ .idle := by
  intro h
  simp [seqEvent, h] at he

/-- A position with an event has work left. -/
theorem seqWork_pos {s : State} (he : (seqEvent s.fbc).isSome) : 0 < seqWork s.stride s.fbc :=
  (seqWork_advance he).1 ▸ Nat.succ_pos _

/-- From a position with an event the sequencer goes, answer by answer, to `IDLE`. -/
theorem steps_to_idle {xs : List Input} {s : State} (hi : s.inputs = xs) (he : (seqEvent s.fbc).isSome)
    (hp : busProgress (seqWork s.stride s.fbc) s = true) :
    ∃ n t, n ≤ xs.length ∧ steps n s = .next t ∧ t.fbc.seq = .idle ∧ t.program = s.program := by
  induction xs generalizing s with
  | nil =>
    obtain ⟨x, rest, hx, -⟩ := busProgress_answer (seqWork_pos he) hp
    rw [hi] at hx
    cases hx
  | cons y ys ih =>
    obtain ⟨x, rest, hx, hanswer, hnext⟩ := busProgress_answer (seqWork_pos he) hp
    obtain ⟨rfl, rfl⟩ : y = x ∧ ys = rest := by simpa [hi] using hx
    have hstep := step_busy (noArrival_of_busProgress (seqWork_pos he) hp) (seq_ne_idle_of_event he)
    obtain ⟨hstride, hprogram⟩ := sequencerStep_frame s
    obtain ⟨hrest, hwork, hidle | hevent⟩ := sequencerStep_answer he hi hanswer
    · exact ⟨1, _, by simp, by rw [steps_succ hstep]; rfl, hidle, hprogram⟩
    · obtain ⟨n, t, hn, hrun, hidle, hkept⟩ :=
        ih hrest hevent (hnext _ _ (by rw [hstride]; exact hwork) hrest)
      exact ⟨n + 1, t, Nat.succ_le_succ hn, by rw [steps_succ hstep, hrun], hidle, hkept.trans hprogram⟩

/-- A busy position without an event, that of INIT without pins or past its vector, goes on at once, to a position
with an event or to `IDLE`, and takes no answer. -/
theorem sequencerStep_without_event {s : State} (hq : s.fbc.seq ≠ .idle) (hn : seqEvent s.fbc = none) :
    (sequencerStep s).inputs = s.inputs ∧
      ((sequencerStep s).fbc.seq = .idle ∨ (seqEvent (sequencerStep s).fbc).isSome) := by
  have hgo : sequencerStep s = seqAdvance { s with fbc := seqPrepare s.fbc } := by
    simp [sequencerStep, seqEvent_prepare, hn]
  rw [hgo]
  refine ⟨by simp, ?_⟩
  cases hs : s.fbc.seq with
  | idle => exact absurd hs hq
  | initCfg => exact .inr (by simp [seqAdvance, hs, seqEvent])
  | initSend k =>
    have hk : initVector.length ≤ k := by simpa [seqEvent, hs] using hn
    exact .inl (by simp [seqAdvance, hs, Nat.not_lt.mpr (Nat.le_succ_of_le hk)])
  | initStart | mode | power => simp [seqEvent, hs] at hn
  | flush => simpa [hn] using seqEvent_flush hs

/-- Settles O28: at most one step without an event, then one step for each answer that is taken. -/
theorem operationsEnd : Obligations.OperationsEnd := by
  unfold Obligations.OperationsEnd
  intro s hq hp
  have hsteps {t : State} (hi : t.inputs = s.inputs) (he : (seqEvent t.fbc).isSome) :=
    steps_to_idle hi he (busProgress_mono hi (seqWork_le t.stride t.fbc) hp)
  cases hn : seqEvent s.fbc with
  | some e =>
    obtain ⟨n, t, hlen, hrun⟩ := hsteps rfl (by rw [hn]; rfl)
    exact ⟨n, t, Nat.le_succ_of_le hlen, hrun⟩
  | none =>
    have hstep := step_busy (noArrival_of_busProgress (by decide) hp) hq
    obtain ⟨-, hprogram⟩ := sequencerStep_frame s
    obtain ⟨hi, hidle | hevent⟩ := sequencerStep_without_event hq hn
    · exact ⟨1, _, by simp, by rw [steps_succ hstep]; rfl, hidle, hprogram⟩
    · obtain ⟨n, t, hlen, hrun, hidle, hkept⟩ := hsteps hi hevent
      exact ⟨n + 1, t, Nat.succ_le_succ hlen, by rw [steps_succ hstep, hrun], hidle, hkept.trans hprogram⟩

end Sys2Proof.Machine
end

section
/-! # A lost selector makes DRF take the power byte for it (70_reset_and_hazards R312) -/

namespace Sys2Proof.Machine

/-! ## Emissions that the transport completes -/

/-- A step of a busy sequencer whose event the transport completes without delivering it. -/
theorem step_busy_lost {s : State} {e : Event} {rest : List Input} (h : s.fbc.seq ≠ .idle)
    (he : seqEvent s.fbc = some e) (hf : s.fbc.inFlight = false) (hi : s.inputs = .lost :: rest) :
    step s =
      .next (seqAdvance
        { s with
          inputs := rest
          fbc := { seqPrepare s.fbc with trace := s.fbc.trace ++ [e], inFlight := false } }) := by
  have ha : noArrival s = true := by simp [noArrival, hi, Input.isAnswer]
  rw [step_busy ha h]
  simp [sequencerStep, seqEvent_prepare, he, transact, hf, settle, launch, hi]

/-! ## The two operations -/

/-- SET_PAGE_MODE with its opcode delivered and its selector lost: FBC sends both and sets its flag, DRF waits for the
selector. -/
theorem steps_setPageMode_selectorLost {s : State} {prog : List OpWord} {rest : List Input}
    (hw : presents s 0x50000000 prog) (hb : s.fbc.busStarted = true) (hi : s.inputs = .done :: .lost :: rest) :
    steps 3 s =
      .next
        { s with
          program := prog
          inputs := rest
          fbc :=
            { s.fbc with
              modeFlag := .page
              trace := s.fbc.trace ++ [.txn (commandTxn 0x20)] ++ [.txn (commandTxn 0x02)] }
          drf := receiveCommand 0x20 s.drf } := by
  obtain ⟨hidle, -, hfree⟩ := (atRest_iff s).mp hw.1
  have hstep : step s = .next (enter (.mode .page 0) { s with program := prog }) :=
    (step_hostWord hw (by simp [noArrival, hi, Input.isAnswer])).trans (acceptBus_started hidle hb)
  obtain ⟨fbc, drf, stride, program, calls, inputs, freeCount⟩ := s
  obtain ⟨fb, modeFlag, idx, seq, busStarted, pins, fCoord, fBadop, fBusNotStarted, trace, inFlight⟩ := fbc
  subst hidle hfree hi
  rw [steps_succ hstep, steps_succ (step_busy_done (by simp) rfl rfl rfl),
    steps_succ (step_busy_lost (by simp [seqAdvance]) rfl rfl rfl)]
  rfl

/-- SET_POWER_ON with its byte delivered: FBC sends it, whatever DRF makes of it. -/
theorem steps_setPowerOn {s : State} {prog : List OpWord} {rest : List Input}
    (hw : presents s 0x70000000 prog) (hb : s.fbc.busStarted = true) (hi : s.inputs = .done :: rest) :
    steps 2 s =
      .next
        { s with
          program := prog
          inputs := rest
          fbc := { s.fbc with trace := s.fbc.trace ++ [.txn (commandTxn 0xAF)] }
          drf := receiveCommand 0xAF s.drf } := by
  obtain ⟨hidle, -, hfree⟩ := (atRest_iff s).mp hw.1
  have hstep : step s = .next (enter (.power true) { s with program := prog }) :=
    (step_hostWord hw (by simp [noArrival, hi, Input.isAnswer])).trans (acceptBus_started hidle hb)
  obtain ⟨fbc, drf, stride, program, calls, inputs, freeCount⟩ := s
  obtain ⟨fb, modeFlag, idx, seq, busStarted, pins, fCoord, fBadop, fBusNotStarted, trace, inFlight⟩ := fbc
  subst hidle hfree hi
  rw [steps_succ hstep, steps_succ (step_busy_done (by simp) rfl rfl rfl)]
  rfl

/-! ## What DRF makes of the power byte -/

/-- The addressing-mode opcode waits for its selector, and the power byte is no selector (45_display_register_fsm
R227). -/
theorem receive_powerByte_asSelector {d : Drf} (h : d.pending = none) :
    receiveCommand 0xAF (receiveCommand 0x20 d) =
      { d with fBadSelector := stickyRaise d.fBadSelector 0x3C80AF } := by
  have hwaits : receiveCommand 0x20 d = { d with pending := some .addrMode } := commandByte_none h
  rw [hwaits, receiveCommand, commandByte_some rfl, ← h]
  rfl

/-- Settles O60: the two operations one after the other, the second with DRF waiting for the selector of the first. -/
theorem lostSelectorSwallowsPowerOn : Obligations.LostSelectorSwallowsPowerOn := by
  unfold Obligations.LostSelectorSwallowsPowerOn
  intro s prog rest hw hb hp hi
  have hmode := steps_setPageMode_selectorLost hw hb hi
  obtain ⟨hrest, -⟩ := hw
  rw [steps_add (n := 2) hmode]
  refine (steps_setPowerOn ⟨by exact hrest, rfl⟩ (by exact hb) rfl).trans ?_
  rw [receive_powerByte_asSelector hp, List.append_assoc, List.append_assoc]
  rfl

end Sys2Proof.Machine
end

section
/-! # Decoding and encoding are inverse to each other (30_encoding R90 to R106) -/

namespace Sys2Proof

/-! ## The two rows that exclude values of their fields (45_display_register_fsm R221, R222) -/

theorem wellFormed_txnReservedCtrl (c p : Byte) :
    WellFormed (.txnReservedCtrl c p) = true ↔ c ≠ ctrlCmd ∧ c ≠ ctrlData := by
  simp [WellFormed, ctrlCmd, ctrlData]

theorem wellFormed_txnOtherAddress (a : BitVec 7) (c p : Byte) :
    WellFormed (.txnOtherAddress a c p) = true ↔ a ≠ devAddr := by
  simp [WellFormed, devAddr]

/-! ## Decoding an encoding -/

/-- What a primitive's transaction is told apart by: address and control byte (30_encoding R106). -/
theorem decodeSend_txnBits (v : Byte) :
    decodeSend (txnBits devAddr ctrlCmd v) = .ok (.sendCommand v) ∧
      decodeSend (txnBits devAddr ctrlData v) = .ok (.sendData v) := by
  have hne : devAddr ++ ctrlData ≠ devAddr ++ ctrlCmd := by decide
  simp [decodeSend, hne]

theorem decodeCursor_cursorBits : ∀ cu pg : BitVec 4, decodeCursor (cursorBits cu pg) = .ok (.setCursorXY cu pg) := by
  decide

/-- A transaction is decoded by its address, then by its control byte (45_display_register_fsm R220 to R223, R245). -/
theorem decodeTxn_txnBits (a : BitVec 7) (c p : Byte) :
    decodeTxn (txnBits a c p) =
      if a ≠ devAddr then .txnOtherAddress a c p
      else if c = ctrlCmd then .txnCommand p
      else if c = ctrlData then .txnData p
      else .txnReservedCtrl c p := by
  simp [decodeTxn]

/-- Settles O1, port by port: the fields of an assembled word are its operands, and a command byte finds its row. -/
theorem decodeEncodeRoundTrip : Obligations.DecodeEncodeRoundTrip := by
  unfold Obligations.DecodeEncodeRoundTrip
  intro i hwf
  cases i
  case init | setPixel | display | clearDisplay | setPageMode | setHorizontalMode | setPowerOn | setPowerOff
    | hostReserved0 | hostReserved9 | hostReservedA | hostReservedB | hostReservedC | hostReservedD | hostReservedE
    | hostReservedF => simp [encode, decode, decodeHost]
  case sendCommand v => exact (decodeSend_txnBits v).1
  case sendData v => exact (decodeSend_txnBits v).2
  case setCursorXY cu pg => exact decodeCursor_cursorBits cu pg
  case txnCommand | txnData => simp [encode, decode, decodeTxn_txnBits, ctrlCmd, ctrlData]
  case txnReservedCtrl c p =>
    obtain ⟨hcmd, hdata⟩ := (wellFormed_txnReservedCtrl c p).mp hwf
    simp [encode, decode, decodeTxn_txnBits, hcmd, hdata]
  case txnOtherAddress a c p =>
    have ha := (wellFormed_txnOtherAddress a c p).mp hwf
    simp [encode, decode, decodeTxn_txnBits, ha]
  case setColLow n | setColHigh n | setColHighOutOfRange n | setPage n | rsvdCmd2223 n | rsvdCmd2427 n | rsvdCmd282B n
    | rsvdCmd2C2D n | rsvdCmd303F n | rsvdCmd4243 n | rsvdCmd4447 n | rsvdCmd484F n | rsvdCmd505F n | rsvdCmd607F n
    | rsvdCmd8283 n | rsvdCmd8487 n | rsvdCmd888B n | rsvdCmd8E8F n | rsvdCmd909F n | rsvdCmdA2A3 n | rsvdCmdAAAB n
    | rsvdCmdACAD n | rsvdCmdC0C7 n | rsvdCmdCACB n | rsvdCmdCCCF n | rsvdCmdD0D1 n | rsvdCmdD6D7 n | rsvdCmdDCDF n
    | rsvdCmdE0FF n =>
    clear hwf
    revert n
    decide
  all_goals rfl

/-! ## Encoding what was decoded: words, transactions, calls -/

/-- Two neighbouring fields are one field. -/
theorem extract_join {w : Nat} (x : BitVec w) (lo k m : Nat) :
    x.extractLsb' (lo + k) m ++ x.extractLsb' lo k = x.extractLsb' lo (m + k) :=
  BitVec.extractLsb'_append_extractLsb'_eq_extractLsb' rfl

theorem hostWord_fields (w : OpWord) : hostWord (w.extractLsb' 28 4) (w.extractLsb' 0 28) = w :=
  (extract_join w 0 28 4).trans BitVec.extractLsb'_eq_self

theorem initWord_fields {w : OpWord} (h : w.extractLsb' 28 4 = 0x1#4) :
    initWord (w.extractLsb' 16 12) (w.extractLsb' 8 8) (w.extractLsb' 0 8) = w := by
  rw [initWord, ← h, extract_join w 16 12 4, extract_join w 8 8 16, extract_join w 0 8 24]
  exact BitVec.extractLsb'_eq_self

theorem setPixelWord_fields {w : OpWord} (h : w.extractLsb' 28 4 = 0x2#4) :
    setPixelWord (w.extractLsb' 24 4) (w.extractLsb' 16 8) (w.extractLsb' 8 8) (w.extractLsb' 0 8) = w := by
  rw [setPixelWord, ← h, extract_join w 24 4 4, extract_join w 16 8 8, extract_join w 8 8 16, extract_join w 0 8 24]
  exact BitVec.extractLsb'_eq_self

theorem txnBits_fields (t : TxnWord) : txnBits (t.extractLsb' 16 7) (t.extractLsb' 8 8) (t.extractLsb' 0 8) = t := by
  rw [txnBits, extract_join t 8 8 7, extract_join t 0 8 15]
  exact BitVec.extractLsb'_eq_self

/-- An operation word with its opcode written out. -/
theorem hostWord_of_opcode {w : OpWord} {opc : BitVec 4} (h : w.extractLsb' 28 4 = opc) :
    hostWord opc (w.extractLsb' 0 28) = w :=
  h ▸ hostWord_fields w

theorem opcode_eq_F {opc : BitVec 4} (hlow : 8 < opc) (h9 : opc ≠ 0x9) (hA : opc ≠ 0xA) (hB : opc ≠ 0xB)
    (hC : opc ≠ 0xC) (hD : opc ≠ 0xD) (hE : opc ≠ 0xE) : opc = 0xF := by
  bv_omega

theorem decodeHost_inverse (w : OpWord) : WellFormed (decodeHost w) = true ∧ encode (decodeHost w) = .host w := by
  simp only [decodeHost]
  split
  case h_1 h => exact ⟨rfl, congrArg Words.host (initWord_fields h)⟩
  case h_2 h => exact ⟨rfl, congrArg Words.host (setPixelWord_fields h)⟩
  case h_16 h1 h2 h3 h4 h5 h6 h7 h8 h0 h9 hA hB hC hD hE =>
    have h : w.extractLsb' 28 4 = 0xF :=
      opcode_eq_F (Machine.above_eight_of_ne h0 h1 h2 h3 h4 h5 h6 h7 h8) h9 hA hB hC hD hE
    exact ⟨rfl, congrArg Words.host (hostWord_of_opcode h)⟩
  all_goals next h => exact ⟨rfl, congrArg Words.host (hostWord_of_opcode h)⟩

theorem decodeTxn_inverse (t : TxnWord) : WellFormed (decodeTxn t) = true ∧ encode (decodeTxn t) = .bus t := by
  have ht := txnBits_fields t
  simp only [decodeTxn]
  split
  · next ha => exact ⟨(wellFormed_txnOtherAddress ..).mpr ha, congrArg Words.bus ht⟩
  · next ha =>
    rw [Decidable.not_not.mp ha] at ht
    split
    · next hc => exact ⟨rfl, congrArg Words.bus (hc ▸ ht)⟩
    · next hc =>
      split
      · next hd => exact ⟨rfl, congrArg Words.bus (hd ▸ ht)⟩
      · next hd => exact ⟨(wellFormed_txnReservedCtrl ..).mpr ⟨hc, hd⟩, congrArg Words.bus ht⟩

/-- A transaction with its address and control byte written out. -/
theorem txnBits_of_head {t : TxnWord} {a : BitVec 7} {c : Byte} (h : t.extractLsb' 8 15 = a ++ c) :
    txnBits a c (t.extractLsb' 0 8) = t := by
  rw [txnBits, ← h]
  exact (extract_join t 0 8 15).trans BitVec.extractLsb'_eq_self

theorem decodeSend_inverse {t : TxnWord} {i : Instr} (h : decodeSend t = .ok i) :
    WellFormed i = true ∧ encode i = .send t := by
  simp only [decodeSend] at h
  split at h
  · next hc => cases h; exact ⟨rfl, congrArg Words.send (txnBits_of_head hc)⟩
  · split at h
    · next hd => cases h; exact ⟨rfl, congrArg Words.send (txnBits_of_head hd)⟩
    · cases h

theorem decodeCursor_inverse {t : TxnWord3} {i : Instr} (h : decodeCursor t = .ok i) :
    WellFormed i = true ∧ encode i = .cursor t := by
  simp only [decodeCursor] at h
  split at h
  · next ht => cases h; exact ⟨rfl, congrArg Words.cursor ht⟩
  · cases h

/-! ## The rows of the command byte map (30_encoding R98, R99) -/

/-- The bytes of a row's command: the first byte, and in a two-byte command the parameter. -/
def CommandRow.bytes (r : CommandRow) (b v : Byte) : List Byte := if r.length = 2 then [b, v] else [b]

/-- What is decoded is what a row builds from its bytes. -/
theorem decodeCommand_eq_ok {bytes more : List Byte} {i : Instr} (h : decodeCommand bytes = .ok (i, more)) :
    ∃ r ∈ commandRows, ∃ b v, r.covers b = true ∧ i = r.build b v ∧ bytes = r.bytes b v ++ more := by
  cases bytes with
  | nil => cases h
  | cons b rest =>
    simp only [decodeCommand] at h
    cases hr : commandRow b with
    | none => rw [hr] at h; cases h
    | some r =>
      have hmem : r ∈ commandRows := List.mem_of_find?_eq_some hr
      have hcov : r.covers b = true := by simpa using List.find?_some hr
      simp only [hr] at h
      split at h
      · next hl =>
        split at h
        · cases h
        · cases h; exact ⟨r, hmem, b, _, hcov, rfl, by simp [CommandRow.bytes, hl]⟩
      · next hl => cases h; exact ⟨r, hmem, b, 0, hcov, rfl, by simp [CommandRow.bytes, hl]⟩

theorem decodeCommand_of_decode {bytes : List Byte} {i : Instr} (h : decode (.command bytes) = .ok i) :
    decodeCommand bytes = .ok (i, []) := by
  simp only [decode] at h
  split at h
  · cases h
  · next hd => cases h; exact hd
  · cases h

theorem decode_command_eq_ok {bytes : List Byte} {i : Instr} (h : decode (.command bytes) = .ok i) :
    ∃ r ∈ commandRows, ∃ b v, r.covers b = true ∧ i = r.build b v ∧ bytes = r.bytes b v := by
  simpa using decodeCommand_eq_ok (decodeCommand_of_decode h)

/-- A value whose high bits are fixed by a mask is those bits and its low bits. -/
theorem append_low_of_masked {m k : Nat} {b mask c : BitVec (m + k)} {p : BitVec m} (h : b &&& mask = c)
    (hmask : mask = BitVec.allOnes m ++ 0#k) (hc : c = p ++ 0#k) : p ++ b.extractLsb' 0 k = b := by
  subst hmask hc
  ext i hi
  have hbit := congrArg (fun x => x[i]) h
  simp only [BitVec.getElem_and, BitVec.getElem_append] at hbit ⊢
  split
  · simp [BitVec.getLsbD_eq_getElem hi]
  · next hk => simpa [hk] using hbit.symm

theorem masked_all (b : Byte) : b &&& 0xFF = b := BitVec.and_allOnes

/-- A row's encoding puts the bits back that its pattern and its operands were read from. -/
theorem encode_commandRows : ∀ r ∈ commandRows, ∀ b v, r.covers b = true →
    WellFormed (r.build b v) = true ∧ encode (r.build b v) = .command (r.bytes b v) := by
  simp only [commandRows, definedRows, reservedRowsLow, reservedRowsMid, reservedRowsHigh, List.forall_mem_append,
    List.forall_mem_cons, List.not_mem_nil, false_imp_iff, implies_true, and_true]
  and_intros
  all_goals
    intro b v h
    simp only [CommandRow.covers, beq_iff_eq, masked_all] at h
    simp only [WellFormed, encode, CommandRow.bytes, h, ↓reduceIte, Nat.reduceEqDiff, true_and]
  -- what is left are the rows with free low bits
  all_goals exact congrArg (fun b => Words.command [b]) (append_low_of_masked h rfl rfl)

/-- Settles O2, port by port: fields that were cut from the bits join to the bits again. -/
theorem encodeDecodeWords : Obligations.EncodeDecodeWords := by
  unfold Obligations.EncodeDecodeWords
  intro w i h
  cases w with
  | host w => cases h; exact decodeHost_inverse w
  | send t => exact decodeSend_inverse h
  | cursor t => exact decodeCursor_inverse h
  | bus t => cases h; exact decodeTxn_inverse t
  | command bytes =>
    obtain ⟨r, hr, b, v, hcov, rfl, rfl⟩ := decode_command_eq_ok h
    exact encode_commandRows r hr b v hcov

/-- Settles O3, by evaluation of the decoders at the spec's words. -/
theorem sampleWordsDecode : Obligations.SampleWordsDecode := by
  unfold Obligations.SampleWordsDecode
  decide

end Sys2Proof
end

section
/-! # The length of a command, and its bytes as transactions (30_encoding R98, R99, 45_display_register_fsm R223)

The command byte map is read row by row: a row is a literal byte, an opcode with a parameter, a range of bytes, or
reserved. -/

namespace Sys2Proof.Machine

/-! ## The length of a command (30_encoding R98, R99) -/

/-- Every byte is in a row, and the row's length is that of the command with this opcode. -/
theorem commandRow_length : ∀ b : Byte, (commandRow b).map (·.length) = some (commandBytes b).length := by decide

/-- A byte that is no opcode of a two-byte command is a command. -/
theorem decodeCommand_oneByte {b : Byte} (h : paramOpOf b = none) :
    ∃ i, ∀ rest, decodeCommand (b :: rest) = .ok (i, rest) := by
  obtain ⟨r, hr, hl⟩ := Option.map_eq_some_iff.mp (commandRow_length b)
  have hlen : r.length ≠ 2 := by simp [hl, commandBytes, h]
  exact ⟨r.build b 0, fun rest => by simp [decodeCommand, hr, hlen]⟩

/-- The opcode of a two-byte command waits for its parameter and takes no more. -/
theorem decodeCommand_twoBytes {b : Byte} {op : ParamOp} (h : paramOpOf b = some op) :
    decodeCommand [b] = .reject (.parameterMissing b) ∧
      ∀ v, ∃ i, ∀ rest, decodeCommand (b :: v :: rest) = .ok (i, rest) := by
  obtain ⟨r, hr, hl⟩ := Option.map_eq_some_iff.mp (commandRow_length b)
  have hlen : r.length = 2 := by simp [hl, commandBytes, h]
  exact ⟨by simp [decodeCommand, hr, hlen], fun v => ⟨r.build b v, fun rest => by simp [decodeCommand, hr, hlen]⟩⟩

theorem paramOpOf_isSome_iff (b : Byte) :
    (paramOpOf b).isSome ↔ b ∈ [0x20#8, 0x81#8, 0x8D#8, 0xA8#8, 0xD3#8, 0xD5#8, 0xD9#8, 0xDA#8, 0xDB#8] := by
  revert b; decide

/-- Settles O4: the length is that of the byte's row. -/
theorem commandLengthFromFirstByte : Obligations.CommandLengthFromFirstByte := by
  unfold Obligations.CommandLengthFromFirstByte
  intro b rest
  simp only [← paramOpOf_isSome_iff]
  cases h : paramOpOf b with
  | none =>
    obtain ⟨i, hi⟩ := decodeCommand_oneByte h
    exact ⟨i, hi rest⟩
  | some op =>
    obtain ⟨hmissing, hpair⟩ := decodeCommand_twoBytes h
    refine ⟨hmissing, fun v => ?_⟩
    obtain ⟨i, hi⟩ := hpair v
    exact ⟨i, hi rest⟩

/-! ## A command is its transactions (30_encoding R99, 45_display_register_fsm R223) -/

/-- Command bytes received one after the other. -/
def receiveBytes (bytes : List Byte) (d : Drf) : Drf := bytes.foldl (fun d b => receiveCommand b d) d

theorem receiveOpcode_paramOpByte (op : ParamOp) (d : Drf) :
    receiveOpcode (paramOpByte op) d = { d with pending := some op } := by
  cases op <;> rfl

theorem parameterRule_pending (op : ParamOp) (v : Byte) (d : Drf) : (parameterRule op v d).pending = d.pending := by
  obtain ⟨-, -, -, -, hpending⟩ := parameterRule_frame op v d
  exact hpending

/-- The opcode of a two-byte command and its parameter, received one after the other. -/
theorem commandPair_eq_receiveBytes (op : ParamOp) (v : Byte) (d : Drf) :
    commandPair op v (parameterRule op v) d = receiveBytes [paramOpByte op, v] d := by
  simp only [receiveBytes, List.foldl_cons, List.foldl_nil, receiveCommand]
  cases h : d.pending with
  | none => rw [commandPair_none h, commandByte_none h, receiveOpcode_paramOpByte, commandByte_some rfl, ← h]
  | some p => rw [commandPair_some h, commandByte_some h, commandByte_none (parameterRule_pending ..)]

theorem drfNext_congr {f g : Drf → Drf} (h : f = g) (s : State) : drfNext f s = drfNext g s := by rw [h]

/-- A command byte's meaning is its reception if it does what the byte does as an opcode. -/
theorem commandByte_eq_receiveBytes {b b' : Byte} {f : Drf → Drf} (hb : b' = b) (hf : ∀ d, receiveOpcode b d = f d) :
    commandByte b' f = receiveBytes [b] := by
  rw [hb, ← funext hf]
  rfl

/-! ### What the ranges of command bytes do as opcodes -/

/-- Two masked patterns that differ in a bit of both masks hold for no common byte. -/
theorem masked_ne {b mask mask' p p' : Byte} (h : b &&& mask = p) (hd : mask &&& mask' &&& (p ^^^ p') ≠ 0#8) :
    b &&& mask' ≠ p' := by
  rintro rfl
  subst h
  refine hd (BitVec.eq_of_getElem_eq fun i hi => ?_)
  simp only [BitVec.getElem_and, BitVec.getElem_xor, BitVec.getElem_zero]
  cases b[i] <;> cases mask[i] <;> cases mask'[i] <;> rfl

theorem receiveOpcode_colLow {b : Byte} (h : b &&& 0xF0#8 = 0x00#8) (d : Drf) :
    receiveOpcode b d = setColLowOp (b.extractLsb' 0 4) d :=
  if_pos h

theorem receiveOpcode_colHigh {b : Byte} (h : b &&& 0xF8#8 = 0x10#8) (d : Drf) :
    receiveOpcode b d = setColHighOp (b.extractLsb' 0 3) d := by
  rw [receiveOpcode, if_neg (masked_ne h (by decide)), if_pos h]

theorem receiveOpcode_colHighOutOfRange {b : Byte} (h : b &&& 0xF8#8 = 0x18#8) (d : Drf) :
    receiveOpcode b d = raiseDrf .colRange (commandTxn b) d := by
  rw [receiveOpcode, if_neg (masked_ne h (by decide)), if_neg (masked_ne h (by decide)), if_pos h]

theorem receiveOpcode_page {b : Byte} (h : b &&& 0xF0#8 = 0xB0#8) (d : Drf) :
    receiveOpcode b d = setPageOp (b.extractLsb' 0 4) d := by
  rw [receiveOpcode, if_neg (masked_ne h (by decide)), if_neg (masked_ne h (by decide)),
    if_neg (masked_ne h (by decide)), if_pos h]

/-- A byte that no command of R98 defines raises RsvdCmd (45_display_register_fsm R248). -/
theorem receiveOpcode_reserved {b : Byte} (h : ∀ r ∈ definedRows, r.covers b = false) (d : Drf) :
    receiveOpcode b d = raiseDrf .rsvdCmd (commandTxn b) d := by
  simp only [definedRows, List.forall_mem_cons, List.not_mem_nil, false_imp_iff, implies_true, and_true,
    CommandRow.covers, beq_eq_false_iff_ne, ne_eq, masked_all] at h
  simp only [BitVec.ofNat_eq_ofNat] at h
  simp [receiveOpcode, paramOpOf, h]

/-! ### The rows -/

/-- The meaning of a row's instruction is the reception of its bytes. -/
def ReceivesBytes (r : CommandRow) : Prop :=
  ∀ b v, r.covers b = true → ∀ s, exec (r.build b v) s = drfNext (receiveBytes (r.bytes b v)) s

/-- A row whose mask fixes every bit covers one byte. -/
theorem receivesBytes_of_literal {c : Byte} {len : Nat} {build : Byte → Byte → Instr}
    (h : ∀ v s, exec (build c v) s = drfNext (receiveBytes (CommandRow.bytes ⟨0xFF, c, len, build⟩ c v)) s) :
    ReceivesBytes ⟨0xFF, c, len, build⟩ := by
  intro b v hcov s
  have hb : b = c := by simpa only [CommandRow.covers, beq_iff_eq, masked_all] using hcov
  rw [hb]
  exact h v s

/-- A row of a two-byte command. -/
theorem receivesBytes_of_pair {op : ParamOp} {build : Byte → Byte → Instr}
    (h : ∀ v s, exec (build (paramOpByte op) v) s = drfNext (commandPair op v (parameterRule op v)) s) :
    ReceivesBytes ⟨0xFF, paramOpByte op, 2, build⟩ :=
  receivesBytes_of_literal fun v s =>
    (h v s).trans (drfNext_congr (funext (commandPair_eq_receiveBytes op v)) s)

theorem receivesBytes_definedRows : ∀ r ∈ definedRows, ReceivesBytes r := by
  simp only [definedRows, List.forall_mem_cons, List.not_mem_nil, false_imp_iff, implies_true, and_true]
  refine ⟨fun b v h s => ?_, fun b v h s => ?_, fun b v h s => ?_,
    receivesBytes_of_pair (op := .addrMode) fun _ _ => rfl,
    receivesBytes_of_literal fun _ _ => rfl, receivesBytes_of_literal fun _ _ => rfl,
    receivesBytes_of_pair (op := .contrast) fun _ _ => rfl,
    receivesBytes_of_pair (op := .chargePump) fun _ _ => rfl,
    receivesBytes_of_literal fun _ _ => rfl, receivesBytes_of_literal fun _ _ => rfl,
    receivesBytes_of_literal fun _ _ => rfl,
    receivesBytes_of_pair (op := .muxRatio) fun _ _ => rfl,
    receivesBytes_of_literal fun _ _ => rfl, receivesBytes_of_literal fun _ _ => rfl,
    fun b v h s => ?_,
    receivesBytes_of_literal fun _ _ => rfl,
    receivesBytes_of_pair (op := .dispOffset) fun _ _ => rfl,
    receivesBytes_of_pair (op := .clkDiv) fun _ _ => rfl,
    receivesBytes_of_pair (op := .precharge) fun _ _ => rfl,
    receivesBytes_of_pair (op := .comPins) fun _ _ => rfl,
    receivesBytes_of_pair (op := .vcomLevel) fun _ _ => rfl⟩
  -- the rows with free low bits: SET_COL_LOW, SET_COL_HIGH, SET_COL_HIGH_OUT_OF_RANGE, SET_PAGE
  all_goals replace h := beq_iff_eq.mp h
  · exact drfNext_congr (commandByte_eq_receiveBytes (append_low_of_masked h rfl rfl) (receiveOpcode_colLow h)) s
  · exact drfNext_congr (commandByte_eq_receiveBytes (append_low_of_masked h rfl rfl) (receiveOpcode_colHigh h)) s
  · have hb : 0b00011#5 ++ b.extractLsb' 0 3 = b := append_low_of_masked h rfl rfl
    exact drfNext_congr (commandByte_eq_receiveBytes hb (hb.symm ▸ receiveOpcode_colHighOutOfRange h)) s
  · exact drfNext_congr (commandByte_eq_receiveBytes (append_low_of_masked h rfl rfl) (receiveOpcode_page h)) s

/-- The rows of the reserved command bytes. -/
def reservedRows : List CommandRow := reservedRowsLow ++ reservedRowsMid ++ reservedRowsHigh

theorem commandRows_eq : commandRows = definedRows ++ reservedRows := by
  simp only [commandRows, reservedRows, List.append_assoc]

/-- A byte of a reserved row is in no row of a defined command. -/
theorem not_defined_of_reserved {r : CommandRow} {b : Byte} (hr : r ∈ reservedRows) (h : r.covers b = true) :
    ∀ r' ∈ definedRows, r'.covers b = false := by
  intro r' hr'
  obtain ⟨-, -, hdisjoint⟩ := List.pairwise_append.mp (commandRows_eq ▸ commandRows_disjoint)
  exact Bool.eq_false_iff.mpr fun hcov => masked_ne (beq_iff_eq.mp hcov) (hdisjoint r' hr' r hr) (beq_iff_eq.mp h)

theorem length_reservedRows : ∀ r ∈ reservedRows, r.length = 1 := by decide

/-- Every reserved row has the meaning of a reserved command byte, the byte being the one it is encoded as. -/
theorem exec_reservedRows : ∀ r ∈ reservedRows, ∀ b v c, encode (r.build b v) = .command [c] →
    ∀ s, exec (r.build b v) s = reservedCommand c s := by
  simp only [reservedRows, reservedRowsLow, reservedRowsMid, reservedRowsHigh, List.forall_mem_append,
    List.forall_mem_cons, List.not_mem_nil, false_imp_iff, implies_true, and_true]
  and_intros
  all_goals
    intro b v c h s
    cases h
    rfl

theorem receivesBytes_reservedRows {r : CommandRow} (hr : r ∈ reservedRows) : ReceivesBytes r := by
  intro b v h s
  have hbytes : r.bytes b v = [b] := by simp [CommandRow.bytes, length_reservedRows r hr]
  have henc := (encode_commandRows r (commandRows_eq ▸ List.mem_append_right _ hr) b v h).2
  rw [hbytes] at henc ⊢
  rw [exec_reservedRows r hr b v b henc s]
  exact drfNext_congr (commandByte_eq_receiveBytes rfl (receiveOpcode_reserved (not_defined_of_reserved hr h))) s

/-- A decoded command does what its bytes do when they are received one after the other. -/
theorem exec_command {bytes : List Byte} {i : Instr} (h : decode (.command bytes) = .ok i) (s : State) :
    exec i s = drfNext (receiveBytes bytes) s := by
  obtain ⟨r, hr, b, v, hcov, rfl, rfl⟩ := decode_command_eq_ok h
  rw [commandRows_eq, List.mem_append] at hr
  obtain hr | hr := hr
  · exact receivesBytes_definedRows r hr b v hcov s
  · exact receivesBytes_reservedRows hr b v hcov s

/-- Settles O31: the bytes are received in turn, in every row of the command byte map. -/
theorem commandIsItsTransactions : Obligations.CommandIsItsTransactions := by
  unfold Obligations.CommandIsItsTransactions
  exact fun i b v s => ⟨fun h => exec_command h s, fun h => ⟨_, rfl, exec_command h s⟩⟩

/-! ## A byte that is a parameter (45_display_register_fsm R223) -/

/-- Settles O39: the byte goes to the parameter rule of the pending opcode, which writes that opcode's register. -/
theorem pendingByteIsNoOpcode : Obligations.PendingByteIsNoOpcode := by
  unfold Obligations.PendingByteIsNoOpcode
  intro b op s hp
  refine ⟨_, rfl, rfl, ?_⟩
  change receiveCommand b s.drf = _
  rw [receiveCommand, commandByte_some hp]
  cases op
  case addrMode =>
    rw [parameterRule]
    obtain ⟨-, h⟩ | ⟨-, h⟩ | ⟨-, -, h⟩ := setAddrModeOp_cases b { s.drf with pending := none }
    · rw [h]
    · rw [h]
    · rw [h]; rfl
  all_goals rfl

end Sys2Proof.Machine
end

section
/-! # A step runs what is decoded at a port (30_encoding R91, 45_display_register_fsm R220; logs 4, 6, 7) -/

namespace Sys2Proof.Machine

/-! ## One equation per port -/

/-- The host's word, at an idle port with no call of a bench in progress. -/
theorem step_word {s : State} {w : OpWord} {rest : List OpWord} (ha : noArrival s = true) (hi : s.fbc.seq = .idle)
    (hc : s.calls = []) (hp : s.program = w :: rest) : step s = exec (decodeHost w) { s with program := rest } := by
  simp [step, fetch_noArrival ha, fetchOwn, hi, hc, hp]

section
variable {s : State} {rest : List Input}

theorem step_txn {t : TxnWord} (h : s.inputs = .txn t :: rest) :
    step s = exec (decodeTxn t) { s with inputs := rest } := by
  simp [step, fetch, h]

theorem step_command {bytes : List Byte} (h : s.inputs = .command bytes :: rest) :
    step s = runFetch (fetchCommand bytes { s with inputs := rest }) := by
  simp [step_eq_runFetch, fetch, h]

theorem step_command_all {bytes : List Byte} {i : Instr} (h : s.inputs = .command bytes :: rest)
    (hd : decodeCommand bytes = .ok (i, [])) : step s = exec i { s with inputs := rest } := by
  rw [step_command h, fetchCommand, hd]
  rfl

/-- The bytes after one command stay. -/
theorem step_command_more {bytes more : List Byte} {b : Byte} {i : Instr} (h : s.inputs = .command bytes :: rest)
    (hd : decodeCommand bytes = .ok (i, b :: more)) :
    step s = exec i { s with inputs := .command (b :: more) :: rest } := by
  rw [step_command h, fetchCommand, hd]
  rfl

/-- An opcode without its parameter is one command transaction. -/
theorem step_command_opcode {bytes : List Byte} {b : Byte} (h : s.inputs = .command bytes :: rest)
    (hd : decodeCommand bytes = .reject (.parameterMissing b)) :
    step s = exec (.txnCommand b) { s with inputs := rest } := by
  rw [step_command h, fetchCommand, hd]
  rfl

theorem step_callSend {t : TxnWord} (h : s.inputs = .callSend t :: rest) :
    step s = runFetch (fetchCall (decodeSend t) { s with inputs := rest }) := by
  simp [step_eq_runFetch, fetch, h]

theorem step_callCursor {t : TxnWord3} (h : s.inputs = .callCursor t :: rest) :
    step s = runFetch (fetchCall (decodeCursor t) { s with inputs := rest }) := by
  simp [step_eq_runFetch, fetch, h]

end

/-- Settles O5: the equations of the ports. -/
theorem stepRunsDecodedInstruction : Obligations.StepRunsDecodedInstruction := by
  unfold Obligations.StepRunsDecodedInstruction
  exact fun s =>
    ⟨fun _ _ => step_word, fun _ _ => step_txn, fun _ _ _ => step_command_all, fun _ _ _ _ _ => step_command_more,
      fun _ _ => step_command_opcode, fun _ _ _ h hd => by rw [step_callSend h, hd]; rfl,
      fun _ _ _ h hd => by rw [step_callSend h, hd]; rfl, fun _ _ _ h hd => by rw [step_callCursor h, hd]; rfl,
      fun _ _ _ h hd => by rw [step_callCursor h, hd]; rfl⟩

/-! ## Bits placed where the next step looks (log 4) -/

theorem decodedOption_eq_some {α : Type} {r : Decoded α} {a : α} (h : decodedOption r = some a) : r = .ok a := by
  cases r with
  | ok b => cases h; rfl
  | reject e => cases h

/-- A guarded answer that is one is the answer behind the guard. -/
theorem some_of_ite {α : Type} {p : Prop} [Decidable p] {o : Option α} {a : α}
    (h : (if p then o else none) = some a) : o = some a := by
  split at h
  · exact h
  · cases h

/-- The bytes that `placeWord` makes of a table row's first byte decode to the row's instruction, the parameter zero. -/
theorem decodeCommand_commandBytes {b : Byte} {i : Instr} {more : List Byte}
    (h : decodeCommand [b, 0] = .ok (i, more)) : decodeCommand (commandBytes b) = .ok (i, []) := by
  cases hop : paramOpOf b with
  | none =>
    obtain ⟨j, hj⟩ := decodeCommand_oneByte hop
    rw [hj] at h
    cases h
    simp [commandBytes, hop, hj]
  | some op =>
    obtain ⟨j, hj⟩ := (decodeCommand_twoBytes hop).2 0
    rw [hj] at h
    cases h
    simpa [commandBytes, hop] using hj []

/-- Once the arrivals at the head of the inputs are dropped, no arrival is next. -/
theorem noArrival_dropWhile {s : State} {xs : List Input} (h : s.inputs = xs.dropWhile fun x => !x.isAnswer) :
    noArrival s = true := by
  have hhead := List.head?_dropWhile_not (fun x : Input => !x.isAnswer) xs
  rw [← h] at hhead
  cases hi : s.inputs with
  | nil => simp [noArrival, hi]
  | cons x rest => simpa [noArrival, hi] using hhead

/-- Settles O6: each width of a table row is placed at the port that reads it. -/
theorem placedBitsRunNext : Obligations.PlacedBitsRunNext := by
  unfold Obligations.PlacedBitsRunNext
  intro s nbits w i h
  unfold decodeTableWord at h
  rw [State.withFetchWord, placeWord]
  by_cases h8 : nbits = 8
  · rw [if_pos h8] at h ⊢
    rw [if_neg (by omega)]
    obtain ⟨⟨j, more⟩, hd, rfl⟩ := Option.map_eq_some_iff.mp h
    exact step_command_all rfl (decodeCommand_commandBytes (decodedOption_eq_some hd))
  rw [if_neg h8] at h ⊢
  by_cases h16 : nbits = 16
  · rw [if_pos h16] at h ⊢
    rw [if_neg (by omega)]
    exact step_command_all rfl (decodeCommand_of_decode (decodedOption_eq_some h))
  rw [if_neg h16] at h ⊢
  by_cases h23 : (nbits = 23 || nbits = 24) = true
  · rw [if_pos h23] at h ⊢
    have h32 : nbits ≠ 32 := by rintro rfl; cases h23
    rw [if_neg h32]
    cases some_of_ite h
    exact step_txn rfl
  rw [if_neg h23] at h ⊢
  by_cases h32 : nbits = 32
  · rw [if_pos h32] at h ⊢
    rw [if_pos h32]
    cases h
    exact step_word (noArrival_dropWhile rfl) rfl rfl rfl
  rw [if_neg h32] at h ⊢
  rw [if_neg h32]
  by_cases h69 : (nbits = 69 || nbits = 72) = true
  · rw [if_pos h69] at h ⊢
    rw [step_callCursor rfl, decodedOption_eq_some (some_of_ite h)]
    rfl
  · rw [if_neg h69] at h
    cases h

/-! ## A busy port (30_encoding R91) -/

/-- Settles O7: every word is answered by `accept`, and the sequencer's step leaves the host's words. -/
theorem busyPortIgnoresWords : Obligations.BusyPortIgnoresWords := by
  unfold Obligations.BusyPortIgnoresWords
  intro s hbusy
  refine ⟨fun w => ?_, fun t ha ht => ?_⟩
  · simp only [decodeHost]
    split <;> exact accept_busy hbusy
  · rw [step_busy ha hbusy] at ht
    cases ht
    exact (sequencerStep_frame s).2

/-! ## Reserved words and ignored bits (30_encoding R95) -/

/-- Settles O13: an idle port accepts the word, and accepting it is raising BadOp. -/
theorem reservedHostWordsRaise : Obligations.ReservedHostWordsRaise := by
  unfold Obligations.ReservedHostWordsRaise
  intro ign s hi
  and_intros
  all_goals exact accept_idle hi

/-- Only the fault BusNotStarted latches the word of an operation that needs the bus. -/
theorem acceptBus_of_started {s : State} (h : s.fbc.busStarted = true) (w : OpWord) (t : State) :
    acceptBus w s t = accept s t := by
  rw [acceptBus, if_pos h]

theorem coordsOk_of_le {x y : Byte} (hx : x.toNat ≤ 127) (hy : y.toNat ≤ 63) : coordsOk x y = true :=
  Bool.and_eq_true_iff.mpr ⟨decide_eq_true (Nat.lt_succ_of_le hx), decide_eq_true (Nat.lt_succ_of_le hy)⟩

/-- Settles O14: an operation reads its ignored bits only to latch the word. -/
theorem ignoredBitsHaveNoEffect : Obligations.IgnoredBitsHaveNoEffect := by
  unfold Obligations.IgnoredBitsHaveNoEffect
  intro ign s
  refine ⟨fun _ _ _ => rfl, fun ign' x y color hx hy => ?_, rfl, fun hb => ?_⟩
  · simp only [exec, execSetPixel, coordsOk_of_le hx hy, if_true]
  · and_intros
    all_goals exact (acceptBus_of_started hb _ _).trans (acceptBus_of_started hb _ _).symm

end Sys2Proof.Machine
end

section
/-! # FBC never provokes a fault of DRF, and the two halves stay in step (70_reset_and_hazards R317, 10_state R41)

`ReadyFor q d` says what the sequencer at position `q` relies on at DRF, and the event of a position, delivered, leaves
DRF ready for the next one.  For a command that has to be seen on one DRF only, since whether it raises a fault and what
is pending after it depend on what was pending alone.  The addressing mode follows the scan of the completed events. -/

namespace Sys2Proof.Machine

/-! ## Whether a command byte raises a fault, and what is pending after it -/

theorem raiseDrf_noFault (k : DrfFault) (t : Txn) (d : Drf) : (raiseDrf k t d).noFault = false := by
  cases k <;> simp [raiseDrf, Drf.noFault, stickyRaise_flag]

/-- What the sequencer relies on at DRF while it sends commands: whether a fault is set, and what is pending. -/
def Drf.health (d : Drf) : Bool × Option ParamOp := (d.noFault, d.pending)

section
variable {d d' : Drf}

theorem raiseDrf_health (k : DrfFault) (t : Txn) (h : d.health = d'.health) :
    (raiseDrf k t d).health = (raiseDrf k t d').health := by
  simp only [Drf.health, raiseDrf_noFault, raiseDrf_pending, (Prod.mk.inj h).2]

theorem health_ite {c : Prop} [Decidable c] {a a' b b' : Drf} (ha : a.health = a'.health) (hb : b.health = b'.health) :
    (if c then a else b).health = (if c then a' else b').health := by
  split
  · exact ha
  · exact hb

theorem setAddrModeOp_health (v : Byte) (h : d.health = d'.health) :
    (setAddrModeOp v d).health = (setAddrModeOp v d').health :=
  health_ite h <| health_ite h <| raiseDrf_health _ _ h

theorem parameterRule_health (op : ParamOp) (v : Byte) (h : d.health = d'.health) :
    (parameterRule op v d).health = (parameterRule op v d').health := by
  cases op with
  | addrMode => exact setAddrModeOp_health v h
  | _ => exact h

theorem receiveOpcode_health (b : Byte) (h : d.health = d'.health) :
    (receiveOpcode b d).health = (receiveOpcode b d').health := by
  refine health_ite h <| health_ite h <| health_ite (raiseDrf_health _ _ h) <| health_ite h <| health_ite h <|
    health_ite h <| health_ite h <| health_ite h <| health_ite h <| health_ite h <| health_ite h <| health_ite h ?_
  cases paramOpOf b with
  | none => exact raiseDrf_health _ _ h
  | some op => exact congrArg (·, some op) (Prod.mk.inj h).1

/-- Whether a command byte raises a fault, and what is pending after it, depends on the byte and on what was pending. -/
theorem receiveCommand_health (b : Byte) (h : d.health = d'.health) :
    (receiveCommand b d).health = (receiveCommand b d').health := by
  obtain ⟨hf, hp⟩ := Prod.mk.inj h
  cases hd : d.pending with
  | none =>
    rw [receiveCommand, receiveCommand, commandByte_none hd, commandByte_none (hp ▸ hd)]
    exact receiveOpcode_health b h
  | some op =>
    rw [receiveCommand, receiveCommand, commandByte_some hd, commandByte_some (hp ▸ hd)]
    exact parameterRule_health op b (congrArg (·, none) hf)

end

/-- A DRF with no fault, waiting for the parameter `p`. -/
def faultFree (p : Option ParamOp) : Drf := { State.reset.drf with pending := p }

/-- What a command byte does to the health of a DRF is seen on one DRF of that health. -/
theorem receiveCommand_health_eq {b : Byte} {p q : Option ParamOp} {d : Drf} (h : d.health = (true, p))
    (hb : (receiveCommand b (faultFree p)).health = (true, q)) : (receiveCommand b d).health = (true, q) :=
  (receiveCommand_health (d' := faultFree p) b h).trans hb

/-- The vector raises no fault: each element is the parameter that the one before it asks for, or a command
(41_init R151). -/
theorem initVector_health : ∀ k, (h : k < initVector.length) →
    (receiveCommand initVector[k] (faultFree (seqPending (.initSend k)))).health =
      (true, seqPending (if k + 1 < initVector.length then .initSend (k + 1) else .idle)) := by decide

/-- A mode command is the addressing-mode opcode and a selector DRF knows (44_mode_power_clear R200, R201). -/
theorem modeCommand_health (t : Mode) :
    (receiveCommand 0x20 (faultFree none)).health = (true, some .addrMode) ∧
      (receiveCommand (modeSelector t) (faultFree (some .addrMode))).health = (true, none) := by
  cases t <;> decide

/-- The power commands are one byte (44_mode_power_clear R203, R204). -/
theorem powerCommand_health (b : Bool) :
    (receiveCommand (if b then 0xAF else 0xAE) (faultFree none)).health = (true, none) := by
  cases b <;> decide

theorem pageCnt_le (i : RamAddr) : (pageCnt i).toNat ≤ 7 := by
  have h := (i.extractLsb' 7 3).isLt
  rw [pageCnt, BitVec.toNat_setWidth]
  omega

/-- The cursor stays on a page 0 to 7 (45_display_register_fsm R246, R247). -/
theorem advanceCursor_page_le {d : Drf} (h : d.page.toNat ≤ 7) : (advanceCursor d).page.toNat ≤ 7 := by
  have hmod : ((d.page + 1) % 8).toNat ≤ 7 := by
    rw [BitVec.toNat_umod]
    exact Nat.le_of_lt_succ (Nat.mod_lt _ (by decide))
  unfold advanceCursor
  split
  · exact h
  · split
    · exact hmod
    · exact h

/-- A reposition group raises no fault and leaves nothing pending (43_flush R184). -/
theorem repositionCommand_health {d : Drf} (h : d.health = (true, none)) (c : BitVec 7) (p : BitVec 4) :
    (receiveCommand (colLowByte c) d).health = (true, none) ∧
      (receiveCommand (colHighByte c) d).health = (true, none) ∧
      (receiveCommand (pageByte p) d).health = (true, none) := by
  have hp : d.pending = none := (Prod.mk.inj h).2
  rw [receiveCommand_colLowByte hp, receiveCommand_colHighByte hp, receiveCommand_pageByte hp]
  exact ⟨h, h, h⟩

/-- DRF as the sequencer at position `q` relies on it: no fault, the parameter pending that is sent next, and a page 0
to 7 before a data byte. -/
structure ReadyFor (q : Seq) (d : Drf) : Prop where
  health : d.health = (true, seqPending q)
  page : q = .flush .data → d.page.toNat ≤ 7

/-- A position that is no data byte asks for no page. -/
theorem ReadyFor.of_health {q : Seq} {d : Drf} (h : d.health = (true, seqPending q)) (hq : q ≠ .flush .data) :
    ReadyFor q d :=
  ⟨h, fun hd => absurd hd hq⟩

/-- A data byte sent to a DRF that is ready for it is stored, and DRF is ready for another. -/
theorem ReadyFor.dataByte {d : Drf} (h : ReadyFor (.flush .data) d) (v : Byte) :
    (receiveData v d).health = (true, none) ∧ (receiveData v d).page.toNat ≤ 7 := by
  obtain ⟨hhealth, hpage⟩ := h
  obtain ⟨-, hp⟩ := Prod.mk.inj hhealth
  obtain ⟨hpend, -⟩ | ⟨-, hrange, -⟩ | ⟨-, hle, he⟩ := receiveData_cases v d
  · exact absurd hp hpend
  · exact absurd (hpage rfl) (Nat.not_le.mpr hrange)
  · rw [he]
    refine ⟨?_, advanceCursor_page_le hle⟩
    obtain ⟨c, p, hmove⟩ := advanceCursor_shape { d with gddram := Memory.write d.gddram (cursorAddr d).toNat v }
    rw [hmove]
    exact hhealth

/-- After a data byte the flush goes on at the next index or is over. -/
theorem flushNext_seq (s : State) :
    (flushNext s).fbc.seq = .idle ∨ (flushNext s).fbc.seq = .flush .curLo ∨ (flushNext s).fbc.seq = .flush .data := by
  unfold flushNext
  split
  · exact .inl rfl
  · dsimp only
    split
    · exact .inr (.inl rfl)
    · exact .inr (.inr rfl)

/-- The event of a position, delivered to a DRF that is ready for the position, leaves it ready for the next one. -/
theorem ReadyFor.afterEvent {s : State} {e : Event} {d : Drf} (h : ReadyFor s.fbc.seq d)
    (he : seqEvent s.fbc = some e) : ReadyFor (seqAdvance s).fbc.seq (deliver e d) := by
  simp only [seqEvent] at he
  simp only [seqAdvance]
  generalize s.fbc.seq = q at h he ⊢
  cases q with
  | idle => cases he
  | initCfg sda scl =>
    obtain ⟨-, he⟩ := Option.ite_none_right_eq_some.mp he
    cases he
    exact .of_health h.health nofun
  | initStart => cases he; exact .of_health h.health nofun
  | initSend k =>
    obtain ⟨v, hv, rfl⟩ := Option.map_eq_some_iff.mp he
    obtain ⟨hk, rfl⟩ := List.getElem?_eq_some_iff.mp hv
    refine .of_health (receiveCommand_health_eq h.health (initVector_health k hk)) ?_
    dsimp only
    split <;> exact nofun
  | flush ph =>
    cases ph with
    | curLo =>
      obtain ⟨hlow, -, -⟩ := repositionCommand_health h.health (colCnt s.fbc.idx) (pageCnt s.fbc.idx)
      cases he
      exact .of_health hlow nofun
    | curHi =>
      obtain ⟨-, hhigh, -⟩ := repositionCommand_health h.health (colCnt s.fbc.idx) (pageCnt s.fbc.idx)
      cases he
      exact .of_health hhigh nofun
    | curPg =>
      obtain ⟨-, -, hhealth⟩ := repositionCommand_health h.health (colCnt s.fbc.idx) (pageCnt s.fbc.idx)
      have hpage := receiveCommand_pageByte (Prod.mk.inj h.health).2 (pageCnt s.fbc.idx)
      cases he
      exact ⟨hhealth, fun _ => le_of_eq_of_le (congrArg (·.page.toNat) hpage) (pageCnt_le s.fbc.idx)⟩
    | data =>
      obtain ⟨hhealth, hpage⟩ := h.dataByte (Memory.read s.fbc.fb s.fbc.idx.toNat)
      cases he
      obtain hq | hq | hq := flushNext_seq s <;> simp only [hq]
      all_goals exact ⟨hhealth, fun _ => hpage⟩
  | mode t k =>
    obtain ⟨hopcode, hselector⟩ := modeCommand_health t
    cases he
    by_cases hk : k = 0
    · subst hk; exact .of_health (receiveCommand_health_eq h.health hopcode) nofun
    · obtain rfl : k = 1 := by omega
      exact .of_health (receiveCommand_health_eq h.health hselector) nofun
  | power b =>
    cases he
    exact .of_health (receiveCommand_health_eq h.health (powerCommand_health b)) nofun

/-- A position without an event asks of DRF what the next one asks. -/
theorem ReadyFor.withoutEvent {s : State} {d : Drf} (h : ReadyFor s.fbc.seq d) (he : seqEvent s.fbc = none) :
    ReadyFor (seqAdvance s).fbc.seq d := by
  cases hq : s.fbc.seq with
  | idle => simpa [seqAdvance, hq] using h
  | initCfg sda scl => rw [hq] at h; simpa [seqAdvance, hq] using ReadyFor.of_health (q := .initStart) h.health nofun
  | initSend k =>
    have hk : initVector.length ≤ k := by simpa [seqEvent, hq] using he
    have hpend : seqPending (.initSend k) = none := by
      obtain rfl | hk := Nat.eq_or_lt_of_le hk
      · rfl
      · have hout : initVector[k - 1]? = none := List.getElem?_eq_none (Nat.le_sub_one_of_lt hk)
        simp [seqPending, hout]
    have hnext : (seqAdvance s).fbc.seq = .idle := by simp [seqAdvance, hq, Nat.not_lt.mpr (Nat.le_succ_of_le hk)]
    rw [hnext]
    exact .of_health (h.health.trans (by rw [hq, hpend]; rfl)) nofun
  | initStart | mode | power => simp [seqEvent, hq] at he
  | flush => simpa [he] using seqEvent_flush hq

/-- No operation word enters a position that asks of DRF what `IDLE` does not. -/
theorem ReadyFor.hostStep {w : OpWord} {s t : State} {d : Drf} (h : ReadyFor s.fbc.seq d) (hi : s.fbc.seq = .idle)
    (ht : HostStep w s t) : ReadyFor t.fbc.seq d := by
  have hhealth : d.health = (true, none) := by rw [h.health, hi]; rfl
  cases ht with
  | ignored | pixel | clear => exact h
  | init | display | mode | power => exact .of_health hhealth nofun
  | fault => rw [raiseFbc_fbc_seq]; exact h

/-! ## DRF's addressing mode is the last one the events name -/

theorem parameterRule_addrMode {op : ParamOp} (hop : op ≠ .addrMode) (v : Byte) (d : Drf) :
    (parameterRule op v d).addrMode = d.addrMode := by
  cases op with
  | addrMode => exact absurd rfl hop
  | _ => rfl

theorem receiveOpcode_addrMode (b : Byte) (d : Drf) : (receiveOpcode b d).addrMode = d.addrMode := by
  simp only [receiveOpcode, apply_ite Drf.addrMode, setColLowOp_addrMode, setColHighOp_addrMode, setPageOp_addrMode,
    raiseDrf_addrMode]
  cases paramOpOf b <;> simp

/-- A command byte that is no selector leaves the addressing mode. -/
theorem receiveCommand_addrMode {d : Drf} (h : d.pending ≠ some .addrMode) (b : Byte) :
    (receiveCommand b d).addrMode = d.addrMode := by
  cases hp : d.pending with
  | none => rw [receiveCommand, commandByte_none hp, receiveOpcode_addrMode]
  | some op => rw [receiveCommand, commandByte_some hp, parameterRule_addrMode fun hop => h (hop ▸ hp)]

/-- A selector that names a mode sets it (45_display_register_fsm R227). -/
theorem receiveCommand_selector {d : Drf} (h : d.pending = some .addrMode) {b : Byte} {m : Mode}
    (hm : selectorMode b = some m) : (receiveCommand b d).addrMode = m := by
  rw [receiveCommand, commandByte_some h, parameterRule]
  unfold selectorMode at hm
  unfold setAddrModeOp
  split at hm
  · next hb => cases hm; rw [if_pos hb]
  · next hb =>
    obtain ⟨hb', hm⟩ := Option.ite_none_right_eq_some.mp hm
    cases hm
    rw [if_neg hb, if_pos hb']

theorem receiveData_addrMode (v : Byte) (d : Drf) : (receiveData v d).addrMode = d.addrMode := by
  obtain ⟨-, h⟩ | ⟨-, -, h⟩ | ⟨-, -, h⟩ := receiveData_cases v d <;> rw [h]
  · exact raiseDrf_addrMode ..
  · exact raiseDrf_addrMode ..
  · obtain ⟨_, _, hmove⟩ := advanceCursor_shape { d with gddram := Memory.write d.gddram (cursorAddr d).toNat v }
    rw [hmove]

/-- The scan of the events and DRF agree on the mode, if they agree on whether a selector comes next. -/
theorem deliver_addrMode {d : Drf} {last : Option Mode} (h : ∀ m, last = some m → d.addrMode = m) (e : Event)
    (m : Mode) (hm : (selectorScanStep (decide (d.pending = some .addrMode), last) e).2 = some m) :
    (deliver e d).addrMode = m := by
  cases e with
  | busConfig | busStart => exact h m hm
  | txn t =>
    change (receive t d).addrMode = m
    unfold receive
    by_cases haddr : t.addr = devAddr
    · by_cases hctrl : t.ctrl = ctrlCmd
      · rw [if_neg (Decidable.not_not.mpr haddr), if_pos hctrl]
        simp only [selectorScanStep, if_pos (And.intro haddr hctrl), decide_eq_true_eq] at hm
        by_cases hp : d.pending = some .addrMode
        · rw [if_pos hp] at hm
          exact receiveCommand_selector hp hm
        · rw [if_neg hp] at hm
          exact (receiveCommand_addrMode hp _).trans (h m hm)
      · have hlast : last = some m := by simpa [selectorScanStep, hctrl] using hm
        rw [if_neg (Decidable.not_not.mpr haddr), if_neg hctrl, apply_ite Drf.addrMode, receiveData_addrMode,
          raiseDrf_addrMode, ite_self]
        exact h m hlast
    · have hlast : last = some m := by simpa [selectorScanStep, haddr] using hm
      rw [if_pos haddr]
      exact h m hlast

theorem paramOpOf_eq_addrMode : ∀ b : Byte, decide (paramOpOf b = some .addrMode) = (b == 0x20) := by decide

/-- A selector comes next exactly where the sequencer has DRF wait for one. -/
theorem awaitsSelector_eq (q : Seq) : awaitsSelector q = decide (seqPending q = some .addrMode) := by
  cases q with
  | mode t k =>
    by_cases hk : k = 1 <;> simp [awaitsSelector, seqPending, hk]
  | initSend k =>
    cases k with
    | zero => rfl
    | succ k =>
      change decide (k + 1 = initModeElement) = decide (initVector[k]?.bind paramOpOf = some .addrMode)
      by_cases hk : k < initVector.length
      · rw [List.getElem?_eq_getElem hk, Option.bind_some, paramOpOf_eq_addrMode, initVector_modeOpcode k hk]
      · rw [List.getElem?_eq_none (Nat.not_lt.mp hk)]
        exact decide_eq_false fun h : k + 1 = initModeElement => hk (by rw [Nat.succ.inj h]; decide)
  | _ => rfl

/-! ## The two halves stay in step -/

theorem inStep_iff (s : State) :
    inStep s = true ↔ modeOk s = true ∧ ReadyFor s.fbc.seq s.drf ∧
      ∀ m, (selectorScan (settledTrace s.fbc)).2 = some m → s.drf.addrMode = m := by
  have hready : ReadyFor s.fbc.seq s.drf ↔ s.drf.noFault = true ∧ s.drf.pending = seqPending s.fbc.seq ∧
      (s.fbc.seq ≠ .flush .data ∨ s.drf.page.toNat ≤ 7) :=
    ⟨fun ⟨hhealth, hpage⟩ => ⟨(Prod.mk.inj hhealth).1, (Prod.mk.inj hhealth).2, Decidable.imp_iff_not_or.mp hpage⟩,
      fun ⟨hf, hp, hpage⟩ => ⟨Prod.ext hf hp, Decidable.imp_iff_not_or.mpr hpage⟩⟩
  rw [hready]
  cases h : (selectorScan (settledTrace s.fbc)).2 <;> simp [inStep, h, and_assoc]

/-- Under `bus_ok` a step of the sequencer moves DRF as it moves the position and the completed events. -/
theorem inStep_sequencerStep {s : State} (hb : busOk s = true) (hq : s.fbc.seq ≠ .idle) (h : inStep s = true) :
    inStep (sequencerStep s) = true := by
  obtain ⟨hmode, hready, haddr⟩ := (inStep_iff s).mp h
  obtain ⟨hfl, hscan, -⟩ := (modeOk_iff s).mp hmode
  refine (inStep_iff _).mpr ⟨modeOk_sequencerStep hq hmode, ?_⟩
  have hcur : currentEvent { s with fbc := seqPrepare s.fbc } = seqEvent s.fbc := by
    rw [currentEvent_busy (by simpa using hq), seqEvent_prepare]
  have hemit (e : Event) := (transact_busOk (s := { s with fbc := seqPrepare s.fbc }) hb e).2
  obtain ⟨hn, he⟩ | ⟨e, hn, hdone, he⟩ | ⟨e, hn, hdone, he⟩ := sequencerStep_cases s <;> rw [he]
  · refine ⟨?_, by simpa using haddr⟩
    rw [seqAdvance_drf]
    exact ReadyFor.withoutEvent (by simpa using hready) ((seqEvent_prepare _).trans hn)
  · rw [settledTrace_transact_held hdone, settledTrace_prepare, hemit, hdone]
    exact ⟨by simpa using hready, haddr⟩
  · rw [settledTrace_seqAdvance, settledTrace_transact_done (inFlightOk_prepare hfl) (hcur.trans hn) hdone,
      settledTrace_prepare, selectorScan_append, seqAdvance_drf, hemit, hdone]
    have hevent : seqEvent (transact e { s with fbc := seqPrepare s.fbc }).1.fbc = some e :=
      (seqEvent_congr (f := s.fbc) (by simp) (by simp) (by simp)).trans hn
    have hawait : decide (s.drf.pending = some .addrMode) = (selectorScan (settledTrace s.fbc)).1 := by
      rw [hscan, awaitsSelector_eq, (Prod.mk.inj hready.health).2]
    have hmoves := deliver_addrMode haddr e
    rw [hawait] at hmoves
    exact ⟨ReadyFor.afterEvent (by simpa using hready) hevent, hmoves⟩

/-- With neither other traffic nor a bench's call, what arrives is a reset. -/
theorem step_reset_of_arrival {s : State} (hq : noTraffic s = true) (hc : noNewCalls s = true)
    (ha : noArrival s = false) :
    ∃ width height draw rest, step s = .next (construct width height draw { s with inputs := rest }) := by
  cases hi : s.inputs with
  | nil => simp [noArrival, hi] at ha
  | cons x rest =>
    cases x
    case reset width height draw => exact ⟨width, height, draw, rest, by simp [step, fetch, hi]⟩
    case done | lost | wait => simp [noArrival, hi, Input.isAnswer] at ha
    case txn | command => simp [noTraffic, hi] at hq
    case callSend | callCursor => simp [noNewCalls, hi] at hc

/-- Settles O47: each step of the sequencer keeps DRF ready for the next position and in the mode last sent; the host's
word moves neither half away from the other, and a reset puts both at rest. -/
theorem stepKeepsDrfInStep : Obligations.StepKeepsDrfInStep := by
  unfold Obligations.StepKeepsDrfInStep
  intro s t hb hq hcalls h ht
  obtain ⟨hnone, hnew⟩ : s.calls = [] ∧ noNewCalls s = true := by simpa [noCalls] using hcalls
  cases ha : noArrival s with
  | false =>
    obtain ⟨width, height, draw, rest, hstep⟩ := step_reset_of_arrival hq hnew ha
    cases hstep.symm.trans ht
    rfl
  | true =>
    cases stepCase_of_step ht with
    | reset _ _ _ _ arrival => simp [noArrival, arrival, Input.isAnswer] at ha
    | received _ _ arrival => simp [ha] at arrival
    | called _ _ _ arrival => simp [ha] at arrival
    | sequencer _ busy => exact inStep_sequencerStep hb busy h
    | calls _ _ calls => exact absurd hnone calls
    | host _ idle _ _ rest _ word =>
      obtain ⟨hmode, hready, haddr⟩ := (inStep_iff s).mp h
      refine (inStep_iff t).mpr ⟨modeOk_step hcalls hmode ht, ?_⟩
      rw [word.drf_eq, word.mode_frame.1]
      exact ⟨ReadyFor.hostStep (s := { s with program := rest }) hready idle word, haddr⟩
    | quiet => exact h

end Sys2Proof.Machine
end

section
/-! # The primitives called by a bench, and the operations that need the bus (40_bus_primitives R130 to R133)

Where every event of the calls is delivered, each step of the calls leaves the state in which they end the same
(`callsEnd`), whether the transport completes the event or lets it wait; so a call ends there, in one step or in
many. -/

namespace Sys2Proof.Machine

/-! ## The calls whose events are all delivered -/

/-- The end of the calls of a block in `IDLE`, each of their events delivered: every event that is still to emit is on
the trace, and DRF has received all of them. -/
def callsEnd (rest : List Input) (s : State) : State :=
  { s with
    calls := []
    inputs := rest
    drf := s.calls.foldl (fun d e => deliver e d) s.drf
    fbc := { s.fbc with trace := s.fbc.trace ++ unsentCalls s, inFlight := false } }

theorem callsEnd_of_none {s : State} (hc : s.calls = []) (hf : s.fbc.inFlight = false) : callsEnd s.inputs s = s := by
  obtain ⟨fbc, drf, stride, program, calls, inputs, freeCount⟩ := s
  obtain ⟨fb, modeFlag, idx, seq, busStarted, pins, fCoord, fBadop, fBusNotStarted, trace, inFlight⟩ := fbc
  subst hc hf
  simp [callsEnd, unsentCalls]

/-- A step of the calls that completes and delivers leaves their end the same. -/
theorem callStep_done {s : State} {e : Event} {es : List Event} {xs rest : List Input} (hi : s.fbc.seq = .idle)
    (hc : s.calls = e :: es) (hx : s.inputs = .done :: xs) :
    (callStep s).2 = true ∧ (callStep s).1.calls = es ∧ (callStep s).1.inputs = xs ∧
      (callStep s).1.fbc.inFlight = false ∧ callsEnd rest (callStep s).1 = callsEnd rest s := by
  obtain ⟨fbc, drf, stride, program, calls, inputs, freeCount⟩ := s
  obtain ⟨fb, modeFlag, idx, seq, busStarted, pins, fCoord, fBadop, fBusNotStarted, trace, inFlight⟩ := fbc
  subst hi hc hx
  cases inFlight <;> simp [callStep, transact, settle, launch, callsEnd, unsentCalls]

/-- So does one in which the transport lets the first event wait. -/
theorem callStep_wait {s : State} {e : Event} {es : List Event} {xs rest : List Input} (hi : s.fbc.seq = .idle)
    (hc : s.calls = e :: es) (hx : s.inputs = .wait :: xs) :
    (callStep s).2 = false ∧ (callStep s).1.calls = e :: es ∧ (callStep s).1.inputs = xs ∧
      callsEnd rest (callStep s).1 = callsEnd rest s := by
  obtain ⟨fbc, drf, stride, program, calls, inputs, freeCount⟩ := s
  obtain ⟨fb, modeFlag, idx, seq, busStarted, pins, fCoord, fBadop, fBusNotStarted, trace, inFlight⟩ := fbc
  subst hi hc hx
  cases inFlight <;> simp [callStep, transact, settle, launch, callsEnd, unsentCalls]

/-- The transport completes and delivers `n` events before `rest`, after any number of waits for each. -/
inductive Delivers (rest : List Input) : Nat → List Input → Prop
  | none : Delivers rest 0 rest
  | done {n : Nat} {xs : List Input} (h : Delivers rest n xs) : Delivers rest (n + 1) (.done :: xs)
  | wait {n : Nat} {xs : List Input} (h : Delivers rest (n + 1) xs) : Delivers rest (n + 1) (.wait :: xs)

theorem Delivers.waits {rest xs : List Input} {n : Nat} (h : Delivers rest n xs) (k : Nat) :
    Delivers rest (n + 1) (List.replicate k .wait ++ .done :: xs) := by
  induction k with
  | zero => exact .done h
  | succ k ih => exact .wait ih

/-- A state on the way to the end `u` of the calls. -/
structure Delivering (rest : List Input) (u s : State) : Prop where
  idle : s.fbc.seq = .idle
  ok : inFlightOk s = true
  answers : Delivers rest s.calls.length s.inputs
  ends : callsEnd rest s = u

section
variable {rest : List Input} {s u : State}

/-- A step of calls in progress takes an answer and stays on the way. -/
theorem Delivering.callStep (h : Delivering rest u s) (hc : s.calls ≠ []) :
    ∃ x, x.isAnswer = true ∧ s.inputs = x :: (callStep s).1.inputs ∧ Delivering rest u (callStep s).1 := by
  obtain ⟨hi, hok, hans, hend⟩ := h
  obtain ⟨e, es, hes⟩ := List.exists_cons_of_ne_nil hc
  have hidle := callStep_idle hi
  have hok' := inFlightOk_callStep hi hok
  rw [hes, List.length_cons] at hans
  generalize hxs : s.inputs = xs at hans
  cases hans with
  | done hans =>
    obtain ⟨-, hcalls, hinputs, -, hkept⟩ := callStep_done (rest := rest) hi hes hxs
    exact ⟨.done, rfl, by rw [hinputs], hidle, hok', by rw [hcalls, hinputs]; exact hans, hkept.trans hend⟩
  | wait hans =>
    obtain ⟨-, hcalls, hinputs, hkept⟩ := callStep_wait (rest := rest) hi hes hxs
    exact ⟨.wait, rfl, by rw [hinputs], hidle, hok', by rw [hcalls, hinputs]; exact hans, hkept.trans hend⟩

theorem Delivering.callSteps (h : Delivering rest u s) (n : Nat) : Delivering rest u (callSteps n s) := by
  refine callSteps_induct (P := Delivering rest u) (fun t ht => ?_) n s h
  by_cases hc : t.calls = []
  · rwa [Machine.callStep, hc]
  · obtain ⟨-, -, -, hnext⟩ := ht.callStep hc
    exact hnext

/-- With calls in progress the block's own step is one on the way. -/
theorem Delivering.step (h : Delivering rest u s) (hc : s.calls ≠ []) :
    ∃ x t, s.inputs = x :: t.inputs ∧ step s = .next t ∧ Delivering rest u t := by
  obtain ⟨x, hx, hinputs, hnext⟩ := h.callStep hc
  have ha : noArrival s = true := by simp [noArrival, hinputs, hx]
  exact ⟨x, _, hinputs, step_calls ha h.idle hc, hnext⟩

/-- With no call in progress the end is reached. -/
theorem Delivering.eq_end (h : Delivering rest u s) (hc : s.calls = []) : s = u := by
  obtain ⟨hi, hok, hans, hend⟩ := h
  have hfree := inFlight_of_currentEvent_none hok (by rw [currentEvent_idle hi, hc]; rfl)
  rw [hc] at hans
  generalize hxs : s.inputs = xs at hans
  cases hans
  rw [← hend, ← hxs, callsEnd_of_none hc hfree]

/-- The block's own steps lead to the end. -/
theorem Delivering.steps (h : Delivering rest u s) : ∃ n, steps n s = .next u := by
  generalize hxs : s.inputs = xs
  induction xs generalizing s with
  | nil =>
    by_cases hc : s.calls = []
    · exact ⟨0, congrArg _ (h.eq_end hc)⟩
    · obtain ⟨x, t, hinputs, -⟩ := h.step hc
      simp [hxs] at hinputs
  | cons x xs ih =>
    by_cases hc : s.calls = []
    · exact ⟨0, congrArg _ (h.eq_end hc)⟩
    · obtain ⟨y, t, hinputs, hstep, ht⟩ := h.step hc
      obtain ⟨n, hn⟩ := ih ht (List.tail_eq_of_cons_eq (hinputs.symm.trans hxs))
      exact ⟨n + 1, (steps_succ hstep).trans hn⟩

end

/-- Where the transport completes and delivers each event at once, the calls end in the step in which they go on. -/
theorem callSteps_done {s : State} {rest : List Input} (hi : s.fbc.seq = .idle) (hf : s.fbc.inFlight = false)
    (hx : s.inputs = List.replicate s.calls.length .done ++ rest) :
    callSteps s.calls.length s = callsEnd rest s := by
  generalize hc : s.calls = es at hx ⊢
  induction es generalizing s with
  | nil =>
    have hx : s.inputs = rest := hx
    rw [← hx, callsEnd_of_none hc hf]
    rfl
  | cons e es ih =>
    obtain ⟨hdone, hcalls, hinputs, hfree, hkept⟩ := callStep_done (rest := rest) hi hc hx
    rw [List.length_cons, callSteps, if_pos hdone, ih (callStep_idle hi) hfree hcalls hinputs, hkept]

/-! ## A call of a block at rest -/

section
variable {s : State} {es : List Event} {rest : List Input}

/-- The end of a call of a block at rest: its events on the trace, and received by DRF. -/
theorem callsEnd_atRest (h : atRest s = true) :
    callsEnd rest { s with calls := es } =
      { s with
        inputs := rest
        drf := es.foldl (fun d e => deliver e d) s.drf
        fbc := { s.fbc with trace := s.fbc.trace ++ es } } := by
  obtain ⟨hi, hc, hf⟩ := (atRest_iff s).mp h
  obtain ⟨fbc, drf, stride, program, calls, inputs, freeCount⟩ := s
  obtain ⟨fb, modeFlag, idx, seq, busStarted, pins, fCoord, fBadop, fBusNotStarted, trace, inFlight⟩ := fbc
  subst hi hc hf
  rfl

theorem callPrimitive_atRest (h : atRest s = true) :
    callPrimitive es s = .next (callSteps es.length { s with calls := es }) := by
  obtain ⟨hi, hc, -⟩ := (atRest_iff s).mp h
  rw [callPrimitive_idle hi, hc, List.nil_append]

/-- A call whose events are completed and delivered at once. -/
theorem callPrimitive_done (h : atRest s = true) (hx : s.inputs = List.replicate es.length .done ++ rest) :
    callPrimitive es s = .next (callsEnd rest { s with calls := es }) := by
  obtain ⟨hi, -, hf⟩ := (atRest_iff s).mp h
  rw [callPrimitive_atRest h, callSteps_done (s := { s with calls := es }) hi hf hx]

/-- A call whose events are all delivered, some of them after waits. -/
theorem callPrimitive_delivered (h : atRest s = true) (hx : Delivers rest es.length s.inputs) :
    ∃ u n, callPrimitive es s = .next u ∧ steps n u = .next (callsEnd rest { s with calls := es }) := by
  obtain ⟨hi, -, hf⟩ := (atRest_iff s).mp h
  have hway : Delivering rest (callsEnd rest { s with calls := es }) { s with calls := es } :=
    ⟨hi, inFlightOk_of_free hf, hx, rfl⟩
  obtain ⟨n, hn⟩ := (hway.callSteps es.length).steps
  exact ⟨_, n, callPrimitive_atRest h, hn⟩

end

/-! ## setCursorXY -/

/-- The three transactions of setCursorXY (40_bus_primitives R132, 30_encoding R100). -/
def cursorEvents (cu pg : BitVec 4) : List Event :=
  [ .txn ⟨0x3C, 0x80, BitVec.ofNat 8 (8 * cu.toNat % 16)⟩,
    .txn ⟨0x3C, 0x80, BitVec.ofNat 8 (0x10 + 8 * cu.toNat / 16)⟩,
    .txn ⟨0x3C, 0x80, BitVec.ofNat 8 (0xB0 + pg.toNat)⟩ ]

theorem exec_setCursorXY_events (cu pg : BitVec 4) (s : State) :
    exec (.setCursorXY cu pg) s = callPrimitive (cursorEvents cu pg) s :=
  exec_setCursorXY cu pg s

/-- Delivered with nothing pending they set column and page. -/
theorem receive_cursorEvents {d : Drf} (h : d.pending = none) (cu pg : BitVec 4) :
    (cursorEvents cu pg).foldl (fun d e => deliver e d) d =
      { d with col := BitVec.ofNat 7 (8 * cu.toNat), page := pg } := by
  obtain ⟨hlow, hhigh, hpage⟩ := cursorPayloads cu pg
  have hcolumn : ∀ cu : BitVec 4, unitColumn cu = BitVec.ofNat 7 (8 * cu.toNat) := by decide
  rw [cursorEvents, ← hlow, ← hhigh, ← hpage, ← hcolumn]
  exact receive_group h (unitColumn cu) pg

/-- Setting the cursor where it is changes nothing (45_display_register_fsm R250). -/
theorem setCursor_eq_self {d : Drf} {cu pg : BitVec 4} (hcol : d.col.toNat = 8 * cu.toNat) (hpage : d.page = pg) :
    { d with col := BitVec.ofNat 7 (8 * cu.toNat), page := pg } = d := by
  rw [← hcol, ← hpage, BitVec.ofNat_toNat, BitVec.setWidth_eq]

/-- Settles O27: the call of the three transactions ends with all of them on the trace and received by DRF. -/
theorem setCursorPositions : Obligations.SetCursorPositions := by
  unfold Obligations.SetCursorPositions
  intro cu pg s hrest sent positioned
  have hpos : positioned ((cursorEvents cu pg).foldl (fun d e => deliver e d) s.drf) := fun hp =>
    ⟨receive_cursorEvents hp cu pg, fun hcol hpage =>
      (receive_cursorEvents hp cu pg).trans (setCursor_eq_self hcol hpage)⟩
  have hend (rest : List Input) : callsEnd rest { s with calls := cursorEvents cu pg } = sent rest _ :=
    callsEnd_atRest hrest
  refine ⟨fun rest hx => ⟨_, ?_, hpos⟩, fun k0 k1 k2 rest hx => ?_⟩
  · rw [exec_setCursorXY_events, callPrimitive_done hrest hx, hend]
  · have hans : Delivers rest (cursorEvents cu pg).length s.inputs := hx ▸ ((Delivers.none.waits k2).waits k1).waits k0
    obtain ⟨u, n, hcall, hrun⟩ := callPrimitive_delivered hrest hans
    exact ⟨u, n, _, (exec_setCursorXY_events cu pg s).trans hcall, hrun.trans (congrArg _ (hend rest)), hpos⟩

/-! ## sendCommand and sendData -/

/-- Both primitives of one transaction are the call of that transaction (40_bus_primitives R130, R131). -/
theorem exec_send {v : Byte} {i : Instr} {t : Txn}
    (h : (i = .sendCommand v ∧ t = ⟨0x3C, 0x80, v⟩) ∨ (i = .sendData v ∧ t = ⟨0x3C, 0x40, v⟩)) (s : State) :
    exec i s = callPrimitive [.txn t] s := by
  obtain ⟨rfl, rfl⟩ | ⟨rfl, rfl⟩ := h
  · rfl
  · rfl

section
variable {s : State} {e : Event} {rest : List Input}

/-- A call of one event of a block at rest is one step of the calls. -/
theorem callPrimitive_one (h : atRest s = true) :
    callPrimitive [e] s = .next (callStep { s with calls := [e] }).1 := by
  rw [callPrimitive_atRest h]
  exact congrArg Host.Outcome.next (callSteps_one _)

/-- A block that was at rest, with the event of a call in flight. -/
def heldCall (e : Event) (s : State) : State :=
  { s with calls := [e], fbc := { s.fbc with trace := s.fbc.trace ++ [e], inFlight := true } }

theorem callPrimitive_lost (h : atRest s = true) (hx : s.inputs = .lost :: rest) :
    callPrimitive [e] s =
      .next { s with inputs := rest, fbc := { s.fbc with trace := s.fbc.trace ++ [e] } } := by
  obtain ⟨-, hc, hf⟩ := (atRest_iff s).mp h
  rw [callPrimitive_one h]
  simp [callStep, transact, settle, launch, hf, hx, hc]

theorem callPrimitive_wait (h : atRest s = true) (hx : s.inputs = .wait :: rest) :
    callPrimitive [e] s = .next { heldCall e s with inputs := rest } := by
  obtain ⟨-, -, hf⟩ := (atRest_iff s).mp h
  rw [callPrimitive_one h]
  simp [callStep, transact, settle, launch, hf, hx, heldCall]

/-- No answer is a transport that does not complete (log 5). -/
theorem settle_unanswered (h : noArrival s = false ∨ s.inputs = []) : settle e s = (s, false) := by
  obtain ⟨rest, hx, -⟩ | ⟨rest, hx, -⟩ | ⟨rest, hx, -⟩ | he := settle_cases e s
  case inr.inr.inr => exact he
  all_goals simp [noArrival, hx, Input.isAnswer] at h

theorem callPrimitive_unanswered (h : atRest s = true) (hx : noArrival s = false ∨ s.inputs = []) :
    callPrimitive [e] s = .next (heldCall e s) := by
  obtain ⟨-, -, hf⟩ := (atRest_iff s).mp h
  have hsettle : settle e (launch e { s with calls := [e] }) = (heldCall e s, false) := settle_unanswered hx
  rw [callPrimitive_one h]
  simp [callStep, transact, hf, hsettle]

/-- A held call ends in the step in which the transport completes its event. -/
theorem step_heldCall (h : atRest s = true) :
    step { heldCall e s with inputs := .done :: rest } =
      .next
        { s with
          inputs := rest
          drf := deliver e s.drf
          fbc := { s.fbc with trace := s.fbc.trace ++ [e] } } := by
  obtain ⟨hi, hc, hf⟩ := (atRest_iff s).mp h
  rw [step_calls (s := { heldCall e s with inputs := .done :: rest }) rfl hi (List.cons_ne_nil e [])]
  simp [callStep, transact, settle, heldCall, hc, hf]

end

/-- Settles O25, by the answer of the transport. -/
theorem primitivesSend : Obligations.PrimitivesSend := by
  unfold Obligations.PrimitivesSend
  intro v s hrest i t hit fbc held
  rw [exec_send hit]
  refine ⟨fun rest hx => ?_, fun rest => callPrimitive_lost hrest, fun rest => callPrimitive_wait hrest,
    callPrimitive_unanswered hrest, fun rest hx => ⟨_, callPrimitive_wait hrest hx, step_heldCall hrest⟩⟩
  rw [callPrimitive_done hrest hx, callsEnd_atRest hrest]
  rfl

/-! ## What a call leaves unchanged -/

/-- Delivering a data byte writes at most the byte under the cursor (45_display_register_fsm R245). -/
theorem read_deliver_data {v : Byte} {d : Drf} {a : Nat} (h : a ≠ (cursorAddr d).toNat) :
    Memory.read (deliver (.txn (dataTxn v)) d).gddram a = Memory.read d.gddram a := by
  change Memory.read (receiveData v d).gddram a = _
  obtain ⟨-, he⟩ | ⟨-, -, he⟩ | ⟨-, -, he⟩ := receiveData_cases v d <;> rw [he]
  · rw [raiseDrf_gddram]
  · rw [raiseDrf_gddram]
  · rw [advanceCursor_gddram]
    exact Memory.read_write_ne h

/-- The steps of the calls take no word of the host and draw no free value. -/
theorem callSteps_frame (n : Nat) (s : State) :
    (callSteps n s).program = s.program ∧ (callSteps n s).freeCount = s.freeCount := by
  refine callSteps_induct (P := fun t => t.program = s.program ∧ t.freeCount = s.freeCount) ?_ n s ⟨rfl, rfl⟩
  rintro t ⟨hp, hf⟩
  refine ⟨(callStep_program t).trans hp, Eq.trans ?_ hf⟩
  obtain ⟨-, h⟩ | ⟨e, _, _, -, h⟩ | ⟨e, _, _, -, h⟩ := callStep_cases t <;> rw [h]
  · exact (transact_frame e t).2.2.2
  · exact (transact_frame e t).2.2.2

/-- The event is a command transaction. -/
def IsCommand (e : Event) : Prop := ∃ v, e = .txn (commandTxn v)

/-- Calls of commands alone leave the display RAM as it was. -/
theorem callSteps_gddram (n : Nat) {s : State} (h : ∀ e ∈ s.calls, IsCommand e) :
    (callSteps n s).drf.gddram = s.drf.gddram := by
  have hemit {t : State} {e : Event} (he : IsCommand e) : (transact e t).1.drf.gddram = t.drf.gddram := by
    obtain ⟨v, rfl⟩ := he
    obtain hd | hd := transact_drf (.txn (commandTxn v)) t <;> rw [hd]
    exact deliver_command_gddram v t.drf
  refine (callSteps_induct
    (P := fun t => (∀ e ∈ t.calls, IsCommand e) ∧ t.drf.gddram = s.drf.gddram) ?_ n s ⟨h, rfl⟩).2
  rintro t ⟨hcmd, hkept⟩
  obtain ⟨-, he⟩ | ⟨e, rest, hc, -, he⟩ | ⟨e, rest, hc, -, he⟩ := callStep_cases t <;> rw [he]
  · exact ⟨hcmd, hkept⟩
  · rw [transact_calls]
    exact ⟨hcmd, (hemit (hcmd e (hc ▸ List.mem_cons_self))).trans hkept⟩
  · exact ⟨fun e' he' => hcmd e' (hc ▸ List.mem_cons_of_mem e he'),
      (hemit (hcmd e (hc ▸ List.mem_cons_self))).trans hkept⟩

/-- What a call leaves of the state, whatever it sends: all of FBC but the trace and whether an event is in flight, the
configuration and the host's words. -/
theorem callPrimitive_frame {es : List Event} {s t : State} (ht : callPrimitive es s = .next t) :
    t.fbc = { s.fbc with trace := t.fbc.trace, inFlight := t.fbc.inFlight } ∧
      t.stride = s.stride ∧ t.program = s.program ∧ t.freeCount = s.freeCount := by
  by_cases hi : s.fbc.seq = .idle
  · rw [callPrimitive_idle hi] at ht
    cases ht
    obtain ⟨hst, tr, fl, hf⟩ := callSteps_shape (s.calls ++ es).length { s with calls := s.calls ++ es }
    obtain ⟨hp, hc⟩ := callSteps_frame (s.calls ++ es).length { s with calls := s.calls ++ es }
    exact ⟨by rw [hf], hst, hp, hc⟩
  · rw [callPrimitive_busy hi] at ht
    cases ht
    exact ⟨rfl, rfl, rfl, rfl⟩

/-- A call of commands, met by a busy sequencer or called at rest, leaves the display RAM as it was. -/
theorem callPrimitive_commands_gddram {es : List Event} {s t : State} (hs : s.fbc.seq = .idle → atRest s = true)
    (hes : ∀ e ∈ es, IsCommand e) (ht : callPrimitive es s = .next t) : t.drf.gddram = s.drf.gddram := by
  by_cases hi : s.fbc.seq = .idle
  · rw [callPrimitive_atRest (hs hi)] at ht
    cases ht
    exact callSteps_gddram es.length (s := { s with calls := es }) hes
  · rw [callPrimitive_busy hi] at ht
    cases ht
    rfl

/-- A call of one event delivers that event, or nothing. -/
theorem callPrimitive_one_drf {e : Event} {s t : State} (hs : s.fbc.seq = .idle → atRest s = true)
    (ht : callPrimitive [e] s = .next t) : t.drf = s.drf ∨ t.drf = deliver e s.drf := by
  by_cases hi : s.fbc.seq = .idle
  · rw [callPrimitive_one (hs hi)] at ht
    cases ht
    have hdrf : (callStep { s with calls := [e] }).1.drf = (transact e { s with calls := [e] }).1.drf := by
      unfold callStep
      dsimp only
      split <;> rfl
    rw [hdrf]
    exact transact_drf e { s with calls := [e] }
  · rw [callPrimitive_busy hi] at ht
    cases ht
    exact .inl rfl

/-- The transactions of setCursorXY are commands. -/
theorem cursorEvents_isCommand (cu pg : BitVec 4) : ∀ e ∈ cursorEvents cu pg, IsCommand e := by
  simp only [cursorEvents, List.forall_mem_cons, List.not_mem_nil, false_imp_iff, implies_true, and_true]
  exact ⟨⟨_, rfl⟩, ⟨_, rfl⟩, ⟨_, rfl⟩⟩

/-- Settles O29: a call changes of FBC what its emissions change, and of the display RAM what its events write. -/
theorem primitivesFrame : Obligations.PrimitivesFrame := by
  unfold Obligations.PrimitivesFrame
  intro v cu pg s t hs i hmem ht
  have hcommands {es : List Event} (h : callPrimitive es s = .next t) (hes : ∀ e ∈ es, IsCommand e) (a : Nat) :
      Memory.read t.drf.gddram a = Memory.read s.drf.gddram a := by
    rw [callPrimitive_commands_gddram hs hes h]
  suffices h : (∃ es, callPrimitive es s = .next t) ∧
      (i ≠ .sendData v → ∀ a, Memory.read t.drf.gddram a = Memory.read s.drf.gddram a) ∧
      (i = .sendData v → ∀ a, a ≠ (cursorAddr s.drf).toNat →
        Memory.read t.drf.gddram a = Memory.read s.drf.gddram a) by
    obtain ⟨⟨es, hcall⟩, hram⟩ := h
    obtain ⟨hfbc, hstride, hprogram, hfree⟩ := callPrimitive_frame hcall
    exact ⟨hfbc, hstride, hprogram, hfree, fun a => by rw [hfbc], hram⟩
  simp only [List.mem_cons, List.not_mem_nil, or_false] at hmem
  obtain rfl | rfl | rfl := hmem
  · exact ⟨⟨_, ht⟩, fun _ => hcommands ht (List.forall_mem_singleton.mpr ⟨v, rfl⟩), nofun⟩
  · refine ⟨⟨_, ht⟩, fun h => absurd rfl h, fun _ a ha => ?_⟩
    obtain h | h := callPrimitive_one_drf hs ht <;> rw [h]
    exact read_deliver_data ha
  · rw [exec_setCursorXY_events] at ht
    exact ⟨⟨_, ht⟩, fun _ => hcommands ht (cursorEvents_isCommand cu pg), nofun⟩

/-! ## The operations that need the bus -/

/-- Settles O12: an idle port accepts the word, and without the bus accepting it is raising BusNotStarted. -/
theorem busOperationsBeforeInitRaise : Obligations.BusOperationsBeforeInitRaise := by
  unfold Obligations.BusOperationsBeforeInitRaise
  intro ign s hi hb
  and_intros
  all_goals exact acceptBus_notStarted hi hb

end Sys2Proof.Machine
end

section
/-! # INIT whole (41_init R150 to R156)

The vector is sent element by element: `vectorSent k` is the end of the run from element `k` on, and the step at element
`k` leaves the run from element `k + 1` on. -/

namespace Sys2Proof.Machine

/-! ## The vector -/

/-- Where INIT stands before the element `k` of its vector; past the vector it is over. -/
def vectorSeq (k : Nat) : Seq := if k < initVector.length then .initSend k else .idle

/-- The end of INIT from the element `k` of its vector on, every element delivered. -/
def vectorSent (k : Nat) (rest : List Input) (s : State) : State :=
  { s with
    inputs := rest
    drf := receiveBytes (initVector.drop k) s.drf
    fbc :=
      { s.fbc with
        seq := .idle
        modeFlag := if k ≤ initModeElement then .horizontal else s.fbc.modeFlag
        trace := s.fbc.trace ++ (initVector.drop k).map fun v => .txn (commandTxn v) } }

/-- Past the vector nothing is sent. -/
theorem vectorSent_all {s : State} (hq : s.fbc.seq = .idle) : vectorSent initVector.length s.inputs s = s := by
  obtain ⟨fbc, drf, stride, program, calls, inputs, freeCount⟩ := s
  obtain ⟨fb, modeFlag, idx, seq, busStarted, pins, fCoord, fBadop, fBusNotStarted, trace, inFlight⟩ := fbc
  subst hq
  simp [vectorSent, receiveBytes, initVector, initModeElement]

/-- The state after the element `k`, delivered. -/
def elementSent (k : Nat) (v : Byte) (rest : List Input) (s : State) : State :=
  { s with
    inputs := rest
    drf := receiveCommand v s.drf
    fbc :=
      { s.fbc with
        seq := vectorSeq (k + 1)
        modeFlag := initModeWrite k s.fbc.modeFlag
        trace := s.fbc.trace ++ [.txn (commandTxn v)] } }

/-- The step at an element of the vector, delivered (R151, R153). -/
theorem step_initSend {k : Nat} (hk : k < initVector.length) {s : State} {rest : List Input}
    (hq : s.fbc.seq = .initSend k) (hf : s.fbc.inFlight = false) (hi : s.inputs = .done :: rest) :
    step s = .next (elementSent k initVector[k] rest s) := by
  have he : seqEvent s.fbc = some (.txn (commandTxn initVector[k])) := by simp [seqEvent, hq, hk]
  have hprep : seqPrepare s.fbc = s.fbc := by simp [seqPrepare, hq]
  rw [step_busy_done (by simp [hq]) he hf hi, hprep]
  simp only [seqAdvance, hq, elementSent, vectorSeq, ← hf]
  rfl

/-- Sending the element `k` leaves those after it to send; the mode flag is written at the mode selector (R153). -/
theorem vectorSent_elementSent {k : Nat} (hk : k < initVector.length) (xs rest : List Input) (s : State) :
    vectorSent (k + 1) rest (elementSent k initVector[k] xs s) = vectorSent k rest s := by
  have hmode : (if k + 1 ≤ initModeElement then .horizontal else initModeWrite k s.fbc.modeFlag) =
      if k ≤ initModeElement then Mode.horizontal else s.fbc.modeFlag := by
    unfold initModeWrite
    obtain hlt | heq | hgt := Nat.lt_trichotomy k initModeElement
    · rw [if_pos (Nat.succ_le_of_lt hlt), if_pos (Nat.le_of_lt hlt)]
    · rw [if_neg (by omega), if_pos heq, if_pos (Nat.le_of_eq heq)]
    · rw [if_neg (by omega), if_neg (Nat.ne_of_gt hgt), if_neg (by omega)]
  simp only [vectorSent, elementSent, hmode, List.drop_eq_getElem_cons hk, receiveBytes, List.foldl_cons, List.map_cons,
    List.append_assoc, List.singleton_append]

/-- From the element `k` on: a step for each of the `n` elements that are left. -/
theorem steps_vector {n k : Nat} (hn : n + k = initVector.length) {s : State} {rest : List Input}
    (hq : s.fbc.seq = vectorSeq k) (hf : s.fbc.inFlight = false) (hi : s.inputs = List.replicate n .done ++ rest) :
    steps n s = .next (vectorSent k rest s) := by
  induction n generalizing k s with
  | zero =>
    obtain rfl : k = initVector.length := by omega
    obtain rfl : s.inputs = rest := hi
    rw [vectorSent_all hq]
    rfl
  | succ n ih =>
    have hk : k < initVector.length := by omega
    rw [steps_succ (step_initSend hk (hq.trans (if_pos hk)) hf hi),
      ← vectorSent_elementSent hk (List.replicate n .done ++ rest)]
    exact ih (by omega) rfl hf rfl

/-- What INIT leaves of DRF (R155): its power, its mode and the fourteen latches. -/
def initDrf (d : Drf) : Drf :=
  { d with
    displayOn := true, addrMode := .horizontal, clkDiv := 0x80, muxRatio := 0x3F, dispOffset := 0x00,
    startLineCmd := 0x40, chargePump := 0x14, segRemapCmd := 0xA1, comScanCmd := 0xC8, comPins := 0x12,
    contrast := 0xCF, precharge := 0xF1, vcomLevel := 0x40, entireOn := false, inverse := false,
    scrollActive := false }

/-- With nothing pending each element is received as an opcode, or as the parameter of the one before it (R223). -/
theorem receiveBytes_initVector {d : Drf} (h : d.pending = none) : receiveBytes initVector d = initDrf d := by
  obtain ⟨⟩ := d
  subst h
  rfl

/-! ## The whole operation -/

/-- `pinsSupplied` is the test of R152. -/
theorem pinsSupplied_iff (sda scl : Byte) : pinsSupplied sda scl = true ↔ 0 ≤ sda.toInt ∧ 0 ≤ scl.toInt := by
  simp [pinsSupplied]

theorem decodeHost_init (ign : BitVec 12) (sda scl : Byte) : decodeHost (initWord ign sda scl) = .init ign sda scl := by
  simp [decodeHost]

/-- `BusStart` and the vector, each event delivered (R150). -/
theorem steps_initStart {s : State} {rest : List Input} (hq : s.fbc.seq = .initStart) (hf : s.fbc.inFlight = false)
    (hi : s.inputs = List.replicate 27 .done ++ rest) :
    steps 27 s =
      .next (vectorSent 0 rest
        { s with fbc := { s.fbc with busStarted := true, trace := s.fbc.trace ++ [.busStart] } }) := by
  obtain ⟨fbc, drf, stride, program, calls, inputs, freeCount⟩ := s
  obtain ⟨fb, modeFlag, idx, seq, busStarted, pins, fCoord, fBadop, fBusNotStarted, trace, inFlight⟩ := fbc
  subst hq hf hi
  rw [steps_succ (step_busy_done (by simp) rfl rfl rfl)]
  exact steps_vector (n := 26) (k := 0) rfl rfl rfl rfl

/-- `INIT_CFG` (R150, R152): with both pins supplied the binding is written and `BusConfig` sent, otherwise neither. -/
theorem step_initCfg {sda scl : Byte} {s : State} {rest : List Input} (hq : s.fbc.seq = .initCfg sda scl)
    (hf : s.fbc.inFlight = false)
    (hi : s.inputs = List.replicate (if pinsSupplied sda scl then 28 else 27) .done ++ rest) :
    step s = .next
      { s with
        inputs := List.replicate 27 .done ++ rest
        fbc :=
          { s.fbc with
            seq := .initStart
            pins := if pinsSupplied sda scl then .custom sda scl else s.fbc.pins
            trace := s.fbc.trace ++ if pinsSupplied sda scl then [.busConfig sda scl] else [] } } := by
  obtain ⟨fbc, drf, stride, program, calls, inputs, freeCount⟩ := s
  obtain ⟨fb, modeFlag, idx, seq, busStarted, pins, fCoord, fBadop, fBusNotStarted, trace, inFlight⟩ := fbc
  subst hq hf hi
  cases hpins : pinsSupplied sda scl with
  | true =>
    rw [step_busy_done (e := .busConfig sda scl) (by simp) (by simp [seqEvent, hpins]) rfl rfl]
    simp [seqPrepare, hpins, seqAdvance, enter, deliver]
  | false =>
    rw [step_busy rfl (by simp)]
    simp [sequencerStep, seqPrepare, seqEvent, hpins, seqAdvance, enter]

/-- INIT from its acceptance to `IDLE`, every event delivered. -/
theorem steps_init {ign : BitVec 12} {sda scl : Byte} {s : State} {prog : List OpWord} {rest : List Input}
    (hw : presents s (initWord ign sda scl) prog) (hp : s.drf.pending = none)
    (hi : s.inputs = List.replicate (if pinsSupplied sda scl then 28 else 27) .done ++ rest) :
    steps 29 s = .next
      { s with
        program := prog
        inputs := rest
        fbc :=
          { s.fbc with
            seq := .idle
            busStarted := true
            pins := if pinsSupplied sda scl then .custom sda scl else s.fbc.pins
            modeFlag := .horizontal
            trace := s.fbc.trace ++ initTrace sda scl }
        drf := initDrf s.drf } := by
  obtain ⟨hidle, -, hfree⟩ := (atRest_iff s).mp hw.1
  have ha : noArrival s = true := by rw [noArrival, hi]; cases pinsSupplied sda scl <;> rfl
  have haccept : step s = .next (enter (.initCfg sda scl) { s with program := prog }) :=
    (decodeHost_init ign sda scl ▸ step_hostWord hw ha).trans (accept_idle hidle)
  rw [steps_succ haccept, steps_succ (step_initCfg (by rfl) (by exact hfree) (by exact hi)),
    steps_initStart rfl (by exact hfree) rfl, ← receiveBytes_initVector hp]
  simp only [vectorSent, initTrace, List.append_assoc]
  rfl

/-- Settles O16: the run of INIT, with its test of the pins and its vector written out. -/
theorem initRuns : Obligations.InitRuns := by
  unfold Obligations.InitRuns
  intro ign sda scl s prog rest hw hp custom hi
  simp only [custom, ← pinsSupplied_iff] at hi ⊢
  rw [steps_init hw hp hi]
  simp only [initTrace, ← List.append_assoc]
  rfl

/-- Settles O11: an idle port accepts the word, and five of the operations need the bus started for it. -/
theorem busOperationsAccepted : Obligations.BusOperationsAccepted := by
  unfold Obligations.BusOperationsAccepted
  intro ign s hi
  refine ⟨fun _ _ _ => accept_idle hi, fun hb => ?_⟩
  and_intros
  all_goals exact acceptBus_started hi hb

end Sys2Proof.Machine
end

section
/-! # SET_PIXEL writes one bit, and the laws that follow (42_pixel R165 to R169)

A canonical framebuffer is determined by its pixels (`Memory.ext_pixel`), and what plotting does to each pixel is one
rule (`pixel_plotPixel`); the laws of R168 follow from these two alone. -/

namespace Sys2Proof.Machine

/-! ## A canonical memory is its pixels -/

/-- No address of 1024 or more is listed. -/
theorem Memory.read_of_size_le {lo a : Nat} {m : Memory} (h : Memory.wfFrom lo m = true) (ha : 1024 ≤ a) :
    Memory.read m a = Memory.unlisted := by
  induction m generalizing lo with
  | nil => rfl
  | cons c rest ih =>
    obtain ⟨b, v⟩ := c
    obtain ⟨-, hb, -, hrest⟩ := Memory.wfFrom_cons.mp h
    rw [Memory.read, if_neg (Nat.ne_of_lt (Nat.lt_of_lt_of_le hb ha)), ih hrest]

/-- Bit `i` of the byte at `a` is the pixel in column `a mod 128` and row `i` of page `a div 128` (20_memory R62). -/
theorem getLsbD_read_eq_pixel (m : Memory) (a : Nat) {i : Nat} (hi : i < 8) :
    (Memory.read m a).getLsbD i = pixel m (a % 128) (a / 128 * 8 + i) := by
  have haddr : a % 128 + (a / 128 * 8 + i) / 8 * 128 = a := by omega
  have hbit : (a / 128 * 8 + i) % 8 = i := by omega
  simp only [pixel, Config.pageHeight, Config.width, haddr, hbit]

/-- Two canonical memories that show the same pixels are the same list. -/
theorem Memory.ext_pixel {m n : Memory} (hm : Memory.wf m = true) (hn : Memory.wf n = true)
    (h : ∀ x y : Nat, x ≤ 127 → y ≤ 63 → pixel m x y = pixel n x y) : m = n := by
  refine Memory.ext_read hm hn fun a => ?_
  by_cases ha : a < 1024
  · refine BitVec.eq_of_getLsbD_eq fun i hi => ?_
    rw [getLsbD_read_eq_pixel m a hi, getLsbD_read_eq_pixel n a hi]
    exact h _ _ (by omega) (by omega)
  · rw [Memory.read_of_size_le hm (Nat.le_of_not_lt ha), Memory.read_of_size_le hn (Nat.le_of_not_lt ha)]

/-! ## What plotting does to a byte and to a pixel (R165) -/

theorem getLsbD_pixelMask (y : Byte) (i : Nat) : (pixelMask y).getLsbD i = decide (i = y.toNat % 8) := by
  rw [pixelMask, ← BitVec.twoPow_eq, BitVec.getLsbD_twoPow]
  have hbit : pixelBit y < 8 := Nat.mod_lt _ (by decide)
  simp only [hbit, decide_true, Bool.true_and, eq_comm (a := i)]
  rfl

/-- Plotting sets or clears the pixel's bit and keeps the other seven. -/
theorem getLsbD_plotByte (old y color : Byte) {i : Nat} (hi : i < 8) :
    (plotByte old y color).getLsbD i = if i = y.toNat % 8 then decide (color ≠ 0) else old.getLsbD i := by
  unfold plotByte
  split
  · next hc =>
    rw [BitVec.getLsbD_or, getLsbD_pixelMask, decide_eq_true hc]
    by_cases hb : i = y.toNat % 8 <;> simp [hb]
  · next hc =>
    rw [BitVec.getLsbD_and, BitVec.getLsbD_not, getLsbD_pixelMask, decide_eq_false hc]
    by_cases hb : i = y.toNat % 8 <;> simp [hb, hi]

/-- Plotting changes one byte of a canonical memory. -/
theorem read_plotPixel {m : Memory} (hm : Memory.wf m = true) (x y color : Byte) (a : Nat) :
    Memory.read (plotPixel x y color m) a =
      if a = (pixelIndex x y).toNat then plotByte (Memory.read m a) y color else Memory.read m a := by
  rw [plotPixel, Memory.read_write hm]
  split
  · next ha => rw [ha]
  · rfl

section
variable {x y : Byte} (hx : x.toNat ≤ 127) (hy : y.toNat ≤ 63)
include hx hy

/-- Plotting changes one pixel: address and bit together tell the pixels apart (20_memory R61, R62). -/
theorem pixel_plotPixel {m : Memory} (hm : Memory.wf m = true) (color : Byte) {x' y' : Nat} (hx' : x' ≤ 127) :
    pixel (plotPixel x y color m) x' y' =
      if x' = x.toNat ∧ y' = y.toNat then decide (color ≠ 0) else pixel m x' y' := by
  have hsplit : x' = x.toNat ∧ y' = y.toNat ↔
      x' + y' / 8 * 128 = x.toNat + y.toNat / 8 * 128 ∧ y' % 8 = y.toNat % 8 := by omega
  simp only [pixel, Config.pageHeight, Config.width, hsplit, read_plotPixel hm,
    pixelIndex_toNat (Nat.lt_succ_of_le hx) (Nat.lt_succ_of_le hy)]
  by_cases ha : x' + y' / 8 * 128 = x.toNat + y.toNat / 8 * 128
  · rw [if_pos ha, getLsbD_plotByte _ _ _ (Nat.mod_lt y' (by decide))]
    simp only [ha, true_and]
  · simp only [ha, false_and, if_false]

/-- The last write to a pixel wins (R168 (d)). -/
theorem plotPixel_plotPixel_same {m : Memory} (hm : Memory.wf m = true) (c c' : Byte) :
    plotPixel x y c' (plotPixel x y c m) = plotPixel x y c' m := by
  have hplot := wf_plotPixel (x := x) (y := y) (color := c) hm
  refine Memory.ext_pixel (wf_plotPixel hplot) (wf_plotPixel hm) fun i j hi _ => ?_
  rw [pixel_plotPixel hx hy hplot c' hi, pixel_plotPixel hx hy hm c' hi, pixel_plotPixel hx hy hm c hi]
  split <;> rfl

/-- Two different pixels can be plotted in either order (R168 (c)). -/
theorem plotPixel_comm {x' y' : Byte} (hx' : x'.toNat ≤ 127) (hy' : y'.toNat ≤ 63) (hne : (x', y') ≠ (x, y))
    {m : Memory} (hm : Memory.wf m = true) (c c' : Byte) :
    plotPixel x y c (plotPixel x' y' c' m) = plotPixel x' y' c' (plotPixel x y c m) := by
  have hapart : ¬ (x'.toNat = x.toNat ∧ y'.toNat = y.toNat) := by
    rintro ⟨hxx, hyy⟩
    exact hne (Prod.ext (BitVec.eq_of_toNat_eq hxx) (BitVec.eq_of_toNat_eq hyy))
  have hplot := wf_plotPixel (x := x) (y := y) (color := c) hm
  have hplot' := wf_plotPixel (x := x') (y := y') (color := c') hm
  refine Memory.ext_pixel (wf_plotPixel hplot') (wf_plotPixel hplot) fun i j hi _ => ?_
  rw [pixel_plotPixel hx hy hplot' c hi, pixel_plotPixel hx' hy' hm c' hi, pixel_plotPixel hx' hy' hplot c' hi,
    pixel_plotPixel hx hy hm c hi]
  by_cases h : i = x.toNat ∧ j = y.toNat
  · have h' : ¬ (i = x'.toNat ∧ j = y'.toNat) := fun h' => hapart ⟨h'.1.symm.trans h.1, h'.2.symm.trans h.2⟩
    rw [if_pos h, if_neg h', if_pos h]
  · rw [if_neg h, if_neg h]

end

/-! ## The operation word at an idle port -/

/-- The state with one pixel plotted in the framebuffer and nothing else changed. -/
def State.plot (x y color : Byte) (s : State) : State :=
  { s with fbc := { s.fbc with fb := plotPixel x y color s.fbc.fb } }

/-- `coordsOk` is the test of R167, `coordsOk_of_le` the converse. -/
theorem le_of_coordsOk {x y : Byte} (h : coordsOk x y = true) : x.toNat ≤ 127 ∧ y.toNat ≤ 63 := by
  obtain ⟨hx, hy⟩ := Bool.and_eq_true_iff.mp h
  exact ⟨Nat.le_of_lt_succ (of_decide_eq_true hx), Nat.le_of_lt_succ (of_decide_eq_true hy)⟩

section
variable {x y : Byte} {s : State} (hi : s.fbc.seq = .idle)
include hi

/-- Legal coordinates: the pixel is plotted, whether or not the bus is started (R165). -/
theorem exec_setPixel_legal (hx : x.toNat ≤ 127) (hy : y.toNat ≤ 63) (ign : BitVec 4) (color : Byte) :
    exec (.setPixel ign x y color) s = .next (s.plot x y color) :=
  (accept_idle hi).trans (congrArg _ (if_pos (coordsOk_of_le hx hy)))

/-- Any other coordinates raise CoordRange (R167). -/
theorem exec_setPixel_illegal (h : ¬ (x.toNat ≤ 127 ∧ y.toNat ≤ 63)) (ign : BitVec 4) (color : Byte) :
    exec (.setPixel ign x y color) s = .next (raiseFbc .coordRange (setPixelWord ign x y color) s) :=
  (accept_idle hi).trans (congrArg _ (if_neg (mt le_of_coordsOk h)))

end

/-- Settles O8: the one byte written is the pixel's, and the illegal word is the one CoordRange latches. -/
theorem setPixelWritesOneBit : Obligations.SetPixelWritesOneBit := by
  unfold Obligations.SetPixelWritesOneBit
  intro ign x y color s hi hm
  by_cases h : x.toNat ≤ 127 ∧ y.toNat ≤ 63
  · refine ⟨_, exec_setPixel_legal hi h.1 h.2 ign color, ?_⟩
    rw [if_pos h, ← pixelIndex_toNat (Nat.lt_succ_of_le h.1) (Nat.lt_succ_of_le h.2)]
    exact ⟨rfl, read_plotPixel hm x y color⟩
  · refine ⟨_, exec_setPixel_illegal hi h ign color, ?_⟩
    rw [if_neg h]
    rfl

/-- Settles O9: each law of the word is the law of plotting; that twice is once is that the last write wins. -/
theorem pixelLaws : Obligations.PixelLaws := by
  unfold Obligations.PixelLaws
  intro x y c s hi hm hx hy
  have hlast (c' : Byte) : exec (.setPixel 0 x y c') (s.plot x y c) = exec (.setPixel 0 x y c') s := by
    rw [exec_setPixel_legal hi hx hy, exec_setPixel_legal (s := s.plot x y c) hi hx hy]
    simp only [State.plot, plotPixel_plotPixel_same hx hy hm]
  have hword := exec_setPixel_legal hi hx hy 0 c
  refine ⟨s.plot x y c, hword, fun x' y' hx' _ => pixel_plotPixel hx hy hm c hx', (hlast c).trans hword,
    fun x' y' c' hx' hy' hne => ?_, hlast⟩
  refine ⟨_, s.plot x' y' c', exec_setPixel_legal (s := s.plot x y c) hi hx' hy' 0 c',
    exec_setPixel_legal hi hx' hy' 0 c', ?_⟩
  rw [exec_setPixel_legal (s := s.plot x' y' c') hi hx hy]
  simp only [State.plot, plotPixel_comm hx hy hx' hy' hne hm]

end Sys2Proof.Machine
end

section
/-! # What a flush sends (43_flush R180 to R184)

The events stand index by index; counted from the last index (`flushFrom`), they are as many as `flushLeft` says, and for
stride 128 they are the pages one after the other. -/

namespace Sys2Proof.Machine

/-! ## The bytes of a reposition group -/

theorem colCnt_toNat (idx : RamAddr) : (colCnt idx).toNat = idx.toNat % 128 := by
  simp [colCnt, BitVec.extractLsb'_toNat]

theorem pageCnt_toNat (idx : RamAddr) : (pageCnt idx).toNat = idx.toNat / 128 := by
  have h := pageCnt_ofNat idx.isLt
  rwa [BitVec.ofNat_toNat, BitVec.setWidth_eq] at h

/-- The payloads of a reposition group as numbers (30_encoding R100, 43_flush R184). -/
theorem groupPayloads (idx : RamAddr) :
    colLowByte (colCnt idx) = BitVec.ofNat 8 (idx.toNat % 128 % 16) ∧
      colHighByte (colCnt idx) = BitVec.ofNat 8 (0x10 + idx.toNat % 128 / 16) ∧
      pageByte (pageCnt idx) = BitVec.ofNat 8 (0xB0 + idx.toNat / 128) := by
  have hcolumn : ∀ c : BitVec 7, colLowByte c = BitVec.ofNat 8 (c.toNat % 16) ∧
      colHighByte c = BitVec.ofNat 8 (0x10 + c.toNat / 16) := by decide
  obtain ⟨hlow, hhigh⟩ := hcolumn (colCnt idx)
  obtain ⟨-, -, hpage⟩ := cursorPayloads 0 (pageCnt idx)
  rw [colCnt_toNat] at hlow hhigh
  rw [pageCnt_toNat] at hpage
  exact ⟨hlow, hhigh, hpage⟩

/-- The group before the first index of a page (R180). -/
theorem cursorGroup_page : ∀ p < 8, cursorGroup (128 * p) =
    [.txn ⟨0x3C, 0x80, 0x00⟩, .txn ⟨0x3C, 0x80, 0x10⟩, .txn ⟨0x3C, 0x80, 0xB0#8 ||| BitVec.ofNat 8 p⟩] := by decide

/-- The group before an index whose column is a multiple of 8 is what setCursorXY sends for its column unit and page
(R184, 40_bus_primitives R132). -/
theorem cursorEvents_eq_cursorGroup {i : Nat} (hi : i < 1024) (h8 : i % 8 = 0) :
    cursorEvents (BitVec.ofNat 4 (i % 128 / 8)) (BitVec.ofNat 4 (i / 128)) = cursorGroup i := by
  obtain ⟨hlow, hhigh, hpage⟩ := groupPayloads (BitVec.ofNat 10 i)
  have hidx : (BitVec.ofNat 10 i).toNat = i := by rw [BitVec.toNat_ofNat]; omega
  have hunit : 8 * (BitVec.ofNat 4 (i % 128 / 8)).toNat = i % 128 := by rw [BitVec.toNat_ofNat]; omega
  have hpg : (BitVec.ofNat 4 (i / 128)).toNat = i / 128 := by rw [BitVec.toNat_ofNat]; omega
  rw [cursorEvents, cursorGroup, hlow, hhigh, hpage, hidx, hunit, hpg]
  rfl

/-- A group is due only at a multiple of 8, whatever the stride (R182). -/
theorem mod_eight_of_due {st : Stride} {i : Nat} (h : i % strideColumns st = 0) : i % 8 = 0 := by
  cases st <;> simp only [strideColumns] at h <;> omega

/-- Settles O24: the call of setCursorXY emits the group of the index. -/
theorem repositionGroupIsSetCursor : Obligations.RepositionGroupIsSetCursor := by
  unfold Obligations.RepositionGroupIsSetCursor
  intro st i fb s rest hi hdue hrest hx
  refine ⟨_, (exec_setCursorXY_events _ _ s).trans (callPrimitive_done hrest hx), ?_⟩
  rw [callsEnd_atRest hrest, cursorEvents_eq_cursorGroup hi (mod_eight_of_due hdue), flushEvents, if_pos hdue,
    ← List.append_assoc]
  rfl

/-! ## The last indices of a flush, and the number of their events (R183) -/

/-- The events of the last `k` indices of a flush. -/
def flushFrom (st : Stride) (fb : Memory) (k : Nat) : List Event :=
  (List.range' (1024 - k) k).flatMap (flushEvents st fb)

theorem flushFrom_all (st : Stride) (fb : Memory) : flushFrom st fb 1024 = flushTrace st fb := by
  rw [flushTrace, List.range_eq_range']
  rfl

theorem flushFrom_succ (st : Stride) (fb : Memory) {k : Nat} (hk : k < 1024) :
    flushFrom st fb (k + 1) = flushEvents st fb (1023 - k) ++ flushFrom st fb k := by
  rw [flushFrom, show 1024 - (k + 1) = 1023 - k by omega, List.range'_succ, List.flatMap_cons,
    show 1023 - k + 1 = 1024 - k by omega]
  rfl

theorem length_flushEvents (st : Stride) (fb : Memory) (i : Nat) :
    (flushEvents st fb i).length = indexCount st i := by
  unfold flushEvents indexCount
  split <;> rfl

theorem length_flushFrom (st : Stride) (fb : Memory) {k : Nat} (hk : k ≤ 1024) :
    (flushFrom st fb k).length = flushLeft st k := by
  induction k with
  | zero => simp [flushFrom, flushLeft]
  | succ k ih =>
    rw [flushFrom_succ st fb hk, List.length_append, length_flushEvents, ih (by omega), flushLeft_succ hk]

theorem length_flushTrace (st : Stride) (fb : Memory) : (flushTrace st fb).length = flushCount st := by
  rw [← flushFrom_all, length_flushFrom st fb (Nat.le_refl 1024), flushLeft_all]

/-! ## The pages and the data bytes of a flush (R180, R182) -/

/-- What is equal at every element of a list gives equal lists (the model's files import core Lean only). -/
theorem flatMap_eq_of_forall_mem {α β : Type} {l : List α} {f g : α → List β} (h : ∀ x ∈ l, f x = g x) :
    l.flatMap f = l.flatMap g := by
  rw [List.flatMap_def, List.flatMap_def, List.map_congr_left h]

/-- A table of `n` pages of `m` entries, row by row. -/
theorem flatMap_range_mul {α : Type} (m n : Nat) (f : Nat → List α) :
    (List.range (m * n)).flatMap f = (List.range n).flatMap fun p => (List.range m).flatMap fun c => f (m * p + c) := by
  induction n with
  | zero => rfl
  | succ n ih =>
    rw [Nat.mul_succ, List.range_add, List.flatMap_append, ih, List.range_succ, List.flatMap_append, List.flatMap_map,
      List.flatMap_singleton]

/-- For stride 128 a page is sent as one group and its 128 data bytes. -/
theorem flushEvents_page (fb : Memory) (p : Nat) :
    ((List.range 128).flatMap fun c => flushEvents .every128 fb (128 * p + c)) =
      cursorGroup (128 * p) ++ (List.range 128).map fun c => .txn (dataTxn (Memory.read fb (128 * p + c))) := by
  have hfirst : flushEvents .every128 fb (128 * p + 0) =
      cursorGroup (128 * p) ++ [.txn (dataTxn (Memory.read fb (128 * p + 0)))] :=
    congrArg (· ++ _) (if_pos (Nat.mul_mod_right 128 p))
  have hnext : ∀ c ∈ List.range 127, flushEvents .every128 fb (128 * p + (c + 1)) =
      [.txn (dataTxn (Memory.read fb (128 * p + (c + 1))))] := fun c hc => by
    rw [List.mem_range] at hc
    rw [flushEvents, if_neg (by simp only [strideColumns]; omega), List.nil_append]
  rw [List.range_succ_eq_map, List.flatMap_cons, List.map_cons, List.flatMap_map, List.map_map, hfirst,
    flatMap_eq_of_forall_mem hnext, List.append_assoc, List.singleton_append, List.map_eq_flatMap]
  rfl

/-- The payload of a data transaction. -/
def dataPayload : Event → Option Byte
  | .txn t => if t.ctrl = 0x40 then some t.payload else none
  | .busConfig _ _ => none
  | .busStart => none

/-- Of the events of an index one is a data transaction. -/
theorem flushEvents_data (st : Stride) (fb : Memory) (i : Nat) :
    (flushEvents st fb i).filterMap dataPayload = [Memory.read fb i] := by
  unfold flushEvents
  split <;> rfl

theorem flushTrace_data (st : Stride) (fb : Memory) :
    (flushTrace st fb).filterMap dataPayload = (List.range 1024).map (Memory.read fb) := by
  rw [flushTrace, List.filterMap_flatMap, List.map_eq_flatMap]
  exact flatMap_eq_of_forall_mem fun i _ => flushEvents_data st fb i

/-- Settles O17: a flush for stride 128 goes page by page, and for either stride each index has one data byte. -/
theorem flushTraceShape : Obligations.FlushTraceShape := by
  unfold Obligations.FlushTraceShape
  intro fb
  refine ⟨?_, fun st => ⟨flushTrace_data st fb, ?_⟩⟩
  · rw [flushTrace, show Config.fbSize = 128 * 8 from rfl, flatMap_range_mul]
    refine flatMap_eq_of_forall_mem fun p hp => ?_
    rw [flushEvents_page, cursorGroup_page p (List.mem_range.mp hp)]
    rfl
  · rw [length_flushTrace]
    cases st <;> rfl

end Sys2Proof.Machine
end

section
/-! # A flush runs through its table, whatever becomes of the transactions (43_flush R184 to R186)

`flushTail` is what a position of the flush and those after it send.  A step whose transaction the transport completes,
delivered or lost, takes the first event from it, so a run of as many steps as it has events sends all of it. -/

namespace Sys2Proof.Machine

/-! ## One step -/

/-- The state after the event `e` of the sequencer's position is complete, before the sequencer goes on. -/
def eventSent (e : Event) (d : Drf) (rest : List Input) (s : State) : State :=
  { s with inputs := rest, drf := d, fbc := { s.fbc with trace := s.fbc.trace ++ [e] } }

/-- The state after a flush: `IDLE`, and a free value in the flush counter (10_state R23; log 8). -/
def flushOver (s : State) : State :=
  { s with
    freeCount := s.freeCount + 1
    fbc := { s.fbc with seq := .idle, idx := Config.idxOutsideFlush s.freeCount } }

section
variable {s : State} {ph : Phase} {e : Event} {rest : List Input}

theorem seqPrepare_flush (hq : s.fbc.seq = .flush ph) : seqPrepare s.fbc = s.fbc := by
  simp [seqPrepare, hq]

/-- The step at a flush position whose transaction is complete and delivered at once. -/
theorem step_flush_done (hq : s.fbc.seq = .flush ph) (hf : s.fbc.inFlight = false) (he : seqEvent s.fbc = some e)
    (hi : s.inputs = .done :: rest) : step s = .next (seqAdvance (eventSent e (deliver e s.drf) rest s)) := by
  rw [step_busy_done (by simp [hq]) he hf hi, seqPrepare_flush hq, ← hf]
  rfl

/-- The step at a flush position whose transaction is lost: FBC goes on all the same (20_memory R73). -/
theorem step_flush_lost (hq : s.fbc.seq = .flush ph) (hf : s.fbc.inFlight = false) (he : seqEvent s.fbc = some e)
    (hi : s.inputs = .lost :: rest) : step s = .next (seqAdvance (eventSent e s.drf rest s)) := by
  rw [step_busy_lost (by simp [hq]) he hf hi, seqPrepare_flush hq, ← hf]
  rfl

/-- Delivered or lost, a transaction that is complete differs in DRF only. -/
theorem step_flush_completed {x : Input} (hx : x = .done ∨ x = .lost) (hq : s.fbc.seq = .flush ph)
    (hf : s.fbc.inFlight = false) (he : seqEvent s.fbc = some e) (hi : s.inputs = x :: rest) :
    ∃ d, step s = .next (seqAdvance (eventSent e d rest s)) := by
  obtain rfl | rfl := hx
  · exact ⟨_, step_flush_done hq hf he hi⟩
  · exact ⟨_, step_flush_lost hq hf he hi⟩

/-- A flush goes on to another of its positions, or after the last byte is over. -/
theorem seqAdvance_flush (hq : s.fbc.seq = .flush ph) :
    (∃ ph' idx', seqAdvance s = { s with fbc := { s.fbc with seq := .flush ph', idx := idx' } }) ∨
      seqAdvance s = flushOver s := by
  cases ph with
  | curLo => exact .inl ⟨.curHi, s.fbc.idx, by simp only [seqAdvance, hq, enter]⟩
  | curHi => exact .inl ⟨.curPg, s.fbc.idx, by simp only [seqAdvance, hq, enter]⟩
  | curPg => exact .inl ⟨.data, s.fbc.idx, by simp only [seqAdvance, hq, enter]⟩
  | data =>
    by_cases hlast : s.fbc.idx = 1023
    · exact .inr (by simp only [seqAdvance, hq, flushNext, if_pos hlast, flushOver])
    · exact .inl ⟨if groupDue s.stride (s.fbc.idx + 1) then .curLo else .data, s.fbc.idx + 1, by
        simp only [seqAdvance, hq, flushNext, if_neg hlast, apply_ite Seq.flush]⟩

end

/-- Settles O23: each row is the step of its position, with the payload and the next position as numbers. -/
theorem flushStepTable : Obligations.FlushStepTable := by
  unfold Obligations.FlushStepTable
  intro s rest hf hi c p sent data
  obtain ⟨hlow, hhigh, hpage⟩ := groupPayloads s.fbc.idx
  refine ⟨fun hq => ?_, fun hq => ?_, fun hq => ?_, fun hq hlt => ?_, fun hq hlast => ?_⟩
  all_goals
    rw [step_flush_done hq hf (by simp only [seqEvent, hq]; rfl) hi]
    simp only [seqAdvance, eventSent, hq]
  · rw [hlow]
    rfl
  · rw [hhigh]
    rfl
  · rw [hpage]
    rfl
  · have hne : s.fbc.idx ≠ 1023 := by bv_omega
    have hsucc : (s.fbc.idx + 1).toNat = s.fbc.idx.toNat + 1 := by bv_omega
    simp only [flushNext, if_neg hne, groupDue, hsucc, beq_iff_eq]
    rfl
  · have heq : s.fbc.idx = 1023 := by bv_omega
    simp only [flushNext, if_pos heq]
    rfl

/-! ## What is left to send -/

/-- The events from the data byte at an index on. -/
def flushFromData (st : Stride) (f : Fbc) : List Event :=
  .txn (dataTxn (Memory.read f.fb f.idx.toNat)) :: flushFrom st f.fb (1023 - f.idx.toNat)

/-- The events a position of a flush and those after it emit. -/
def flushTail (st : Stride) (f : Fbc) : List Event :=
  match f.seq with
  | .flush .curLo => cursorGroup f.idx.toNat ++ flushFromData st f
  | .flush .curHi => (cursorGroup f.idx.toNat).drop 1 ++ flushFromData st f
  | .flush .curPg => (cursorGroup f.idx.toNat).drop 2 ++ flushFromData st f
  | .flush .data => flushFromData st f
  | _ => []

/-- Before an index a flush has the events of that index and of those after it left. -/
theorem flushTail_beforeIndex {st : Stride} {f : Fbc}
    (hq : f.seq = if groupDue st f.idx then .flush .curLo else .flush .data) :
    flushTail st f = flushEvents st f.fb f.idx.toNat ++ flushFrom st f.fb (1023 - f.idx.toNat) := by
  by_cases hdue : groupDue st f.idx = true
  · rw [if_pos hdue] at hq
    rw [flushEvents, if_pos (by simpa [groupDue] using hdue), flushTail, hq, List.append_assoc]
    rfl
  · rw [if_neg hdue] at hq
    rw [flushEvents, if_neg (by simpa [groupDue] using hdue), flushTail, hq, List.nil_append]
    rfl

/-- After the data byte of an index the events of the indices after it are left. -/
theorem flushTail_flushNext (s : State) :
    flushTail s.stride (flushNext s).fbc = flushFrom s.stride s.fbc.fb (1023 - s.fbc.idx.toNat) := by
  by_cases hlast : s.fbc.idx = 1023
  · simp only [flushNext, flushTail, hlast]
    rfl
  · have hidx : (flushNext s).fbc.idx.toNat = s.fbc.idx.toNat + 1 := by
      simp only [flushNext, if_neg hlast]
      bv_omega
    have hseq : (flushNext s).fbc.seq =
        if groupDue s.stride (flushNext s).fbc.idx then .flush .curLo else .flush .data := by
      simp only [flushNext, if_neg hlast]
    have hfb : (flushNext s).fbc.fb = s.fbc.fb := by simp only [flushNext, if_neg hlast]
    have hk : 1023 - s.fbc.idx.toNat = 1022 - s.fbc.idx.toNat + 1 := by bv_omega
    rw [flushTail_beforeIndex hseq, hidx, hfb, hk, flushFrom_succ _ _ (by omega),
      show 1023 - (1022 - s.fbc.idx.toNat) = s.fbc.idx.toNat + 1 by bv_omega,
      show 1023 - (s.fbc.idx.toNat + 1) = 1022 - s.fbc.idx.toNat by omega]

/-- A position of a flush emits the first of the events that are left and goes on to the others. -/
theorem flushTail_advance {s : State} {ph : Phase} {e : Event} (hq : s.fbc.seq = .flush ph)
    (he : seqEvent s.fbc = some e) : flushTail s.stride s.fbc = e :: flushTail s.stride (seqAdvance s).fbc := by
  have hidx : BitVec.ofNat 10 s.fbc.idx.toNat = s.fbc.idx := by rw [BitVec.ofNat_toNat, BitVec.setWidth_eq]
  cases ph with
  | curLo | curHi | curPg =>
    simp only [seqEvent, hq, Option.some.injEq] at he
    simp only [flushTail, seqAdvance, enter, hq, cursorGroup, hidx, ← he]
    rfl
  | data =>
    simp only [seqEvent, hq, Option.some.injEq] at he
    have hgo : seqAdvance s = flushNext s := by simp only [seqAdvance, hq]
    rw [hgo, flushTail_flushNext, ← he]
    simp only [flushTail, hq]
    rfl

/-! ## The whole run -/

/-- The end of a flush from a position on. -/
def flushEnd (d : Drf) (rest : List Input) (s : State) : State :=
  flushOver { s with
    inputs := rest
    drf := d
    fbc := { s.fbc with trace := s.fbc.trace ++ flushTail s.stride s.fbc } }

/-- From a position of a flush on: a step for each of the events that are left, delivered or lost. -/
theorem steps_flush {answers rest : List Input} {s : State} {ph : Phase} (hq : s.fbc.seq = .flush ph)
    (hf : s.fbc.inFlight = false) (hans : ∀ x ∈ answers, x = .done ∨ x = .lost)
    (hlen : answers.length = (flushTail s.stride s.fbc).length) (hi : s.inputs = answers ++ rest) :
    ∃ d, steps answers.length s = .next (flushEnd d rest s) := by
  induction answers generalizing s ph with
  | nil =>
    obtain ⟨e, he⟩ := Option.isSome_iff_exists.mp (seqEvent_flush hq)
    rw [flushTail_advance hq he] at hlen
    cases hlen
  | cons x xs ih =>
    obtain ⟨e, he⟩ := Option.isSome_iff_exists.mp (seqEvent_flush hq)
    obtain ⟨d, hstep⟩ := step_flush_completed (rest := xs ++ rest) (hans x List.mem_cons_self) hq hf he hi
    have htail : flushTail s.stride s.fbc = e :: flushTail s.stride (seqAdvance (eventSent e d (xs ++ rest) s)).fbc :=
      flushTail_advance (s := eventSent e d (xs ++ rest) s) hq he
    rw [htail] at hlen
    obtain ⟨ph', idx', hgo⟩ | hover := seqAdvance_flush (s := eventSent e d (xs ++ rest) s) hq
    · obtain ⟨d', hrun⟩ := ih (s := seqAdvance (eventSent e d (xs ++ rest) s)) (by rw [hgo]) (by rw [hgo]; exact hf)
        (fun y hy => hans y (List.mem_cons_of_mem x hy)) (by rw [seqAdvance_stride]; exact Nat.succ.inj hlen)
        (seqAdvance_inputs _)
      refine ⟨d', (steps_succ hstep).trans (hrun.trans ?_)⟩
      rw [hgo] at htail ⊢
      simp only [flushEnd, htail, eventSent, List.append_assoc, List.singleton_append]
      rfl
    · rw [hover] at hstep hlen htail
      obtain rfl : xs = [] := List.eq_nil_of_length_eq_zero (Nat.succ.inj hlen)
      refine ⟨d, (steps_succ hstep).trans ?_⟩
      simp only [flushEnd, htail]
      rfl

/-- The step that accepts a DISPLAY with the bus started (R180). -/
theorem step_display {ign : BitVec 28} {s : State} {prog : List OpWord} (hw : presents s (0x3#4 ++ ign) prog)
    (hb : s.fbc.busStarted = true) (ha : noArrival s = true) :
    step s = .next { s with program := prog, fbc := { s.fbc with idx := 0, seq := .flush .curLo } } := by
  obtain ⟨hidle, -, -⟩ := (atRest_iff s).mp hw.1
  exact (decodeHost_display ign ▸ step_hostWord hw ha).trans (acceptBus_started hidle hb)

/-- At its first position a flush has all its events left. -/
theorem flushTail_start {st : Stride} {f : Fbc} (hq : f.seq = .flush .curLo) (hidx : f.idx = 0) :
    flushTail st f = flushTrace st f.fb := by
  have hdue : groupDue st f.idx = true := by rw [hidx]; cases st <;> rfl
  rw [flushTail_beforeIndex (by rw [hq, if_pos hdue]), hidx, ← flushFrom_all, flushFrom_succ _ _ (by decide)]
  rfl

/-- Settles O18: after the accepting step the run from the first position sends the whole flush. -/
theorem displaySends : Obligations.DisplaySends := by
  unfold Obligations.DisplaySends
  intro ign s prog answers rest hw hb hans hlen hi
  obtain ⟨hidle, -, hfree⟩ := (atRest_iff s).mp hw.1
  have ha : noArrival s = true := by
    cases answers with
    | nil => exact absurd hlen (by cases s.stride <;> decide)
    | cons x xs =>
      rw [noArrival, hi]
      obtain rfl | rfl := hans x List.mem_cons_self
      · rfl
      · rfl
  have htail := flushTail_start (st := s.stride) (f := { s.fbc with idx := 0, seq := .flush .curLo }) rfl rfl
  obtain ⟨d, hrun⟩ := steps_flush
    (s := { s with program := prog, fbc := { s.fbc with idx := 0, seq := .flush .curLo } })
    rfl hfree hans (by rw [hlen, htail, length_flushTrace]) hi
  refine ⟨_, (steps_succ (step_display hw hb ha)).trans (hlen ▸ hrun), ?_⟩
  simp only [flushEnd, flushOver, htail, ← hidle]

/-! ## What DRF has of it (R186) -/

/-- Once every byte is mirrored the display RAM is the framebuffer: canonical memories with equal bytes are equal. -/
theorem Mirroring.gddram_eq {s t : State} {rest : List Input} {q : Seq} {n : Nat} (h : Mirroring s rest q 1024 n t)
    (hfb : Memory.wf s.fbc.fb = true) : t.drf.gddram = s.fbc.fb :=
  Memory.ext_read h.canonical hfb fun a => by
    by_cases ha : a < 1024
    · exact h.mirrored a ha
    · rw [Memory.read_of_size_le h.canonical (by omega), Memory.read_of_size_le hfb (by omega)]

/-- After the last byte the column is 0 again, the page the first again or still the last (R246, R247; log 11). -/
theorem CursorAfter.last {d : Drf} (h : CursorAfter 1024 d) :
    d.col = 0 ∧ d.page = match d.addrMode with | .horizontal => 0 | .page => 7 := by
  obtain ⟨hcol, hpage⟩ := h
  refine ⟨BitVec.eq_of_toNat_eq hcol, BitVec.eq_of_toNat_eq ?_⟩
  rw [hpage]
  cases d.addrMode <;> rfl

/-- Settles O19: the display RAM and the cursor are as after the last index, and the rest of DRF is as it was. -/
theorem displayMirrorsFramebuffer : Obligations.DisplayMirrorsFramebuffer := by
  unfold Obligations.DisplayMirrorsFramebuffer
  intro ign s prog rest hw hb hm hp hi
  obtain ⟨hfb, -⟩ := (memoryOk_iff s).mp hm
  obtain ⟨t, ht, hmirror, hcursor⟩ := display_mirrors hw hb hm hp hi
  refine ⟨t, ht, hmirror.seq, hmirror.mirrored, ?_⟩
  have hgddram := hmirror.gddram_eq hfb
  obtain ⟨hcol, hpage⟩ := hcursor.last
  obtain ⟨g, c, p, hd⟩ := hmirror.drf
  rw [hd] at hgddram hcol hpage ⊢
  obtain rfl : g = s.fbc.fb := hgddram
  obtain rfl : c = 0 := hcol
  obtain rfl : p = match s.drf.addrMode with | .horizontal => 0 | .page => 7 := hpage
  rfl

end Sys2Proof.Machine
end

section
/-! # Modes, power and clearing (44_mode_power_clear R200 to R205)

Each of these operations is an accepting step and then one step for each transaction: `step_busWord_started` and
`step_busWord_notStarted` are the first, `step_sent` is the other where the transport completes, `HungAt.sequencerStep`
where it never answers. -/

namespace Sys2Proof.Machine

/-! ## CLEAR_DISPLAY (R205) -/

theorem read_clearedMemory (a : Nat) : Memory.read clearedMemory a = 0x00 := by
  rw [clearedMemory_eq]
  rfl

theorem pixel_clearedMemory (x y : Nat) : pixel clearedMemory x y = false := by
  rw [pixel, read_clearedMemory]
  exact BitVec.getLsbD_zero

/-- An idle port accepts the word, and accepting it needs no bus. -/
theorem exec_clearDisplay_idle {s : State} (hi : s.fbc.seq = .idle) (ign : BitVec 28) :
    exec (.clearDisplay ign) s = .next { s with fbc := { s.fbc with fb := clearedMemory } } :=
  accept_idle hi

/-- Settles O10: the framebuffer becomes the cleared one, whose bytes and pixels are zero, and clearing it again writes
the same. -/
theorem clearDisplayZeroes : Obligations.ClearDisplayZeroes := by
  unfold Obligations.ClearDisplayZeroes
  intro ign s hi
  exact ⟨_, exec_clearDisplay_idle hi ign, rfl, fun a _ => read_clearedMemory a,
    fun x y _ _ => pixel_clearedMemory x y, exec_clearDisplay_idle (by exact hi) ign⟩

/-! ## The words of the operations that send -/

/-- The opcode of SET_PAGE_MODE or SET_HORIZONTAL_MODE (30_encoding R92). -/
def modeOpcode : Mode → BitVec 4
  | .page => 0x5
  | .horizontal => 0x6

/-- The opcode of SET_POWER_ON or SET_POWER_OFF (30_encoding R92). -/
def powerOpcode (on : Bool) : BitVec 4 := if on then 0x7 else 0x8

theorem exec_modeWord (m : Mode) (ign : BitVec 28) (s : State) :
    exec (decodeHost (hostWord (modeOpcode m) ign)) s =
      acceptBus (hostWord (modeOpcode m) ign) s (enter (.mode m 0) s) := by
  cases m <;> simp only [decodeHost, hostWord_opc, hostWord_ign, modeOpcode] <;> rfl

theorem exec_powerWord (on : Bool) (ign : BitVec 28) (s : State) :
    exec (decodeHost (hostWord (powerOpcode on) ign)) s =
      acceptBus (hostWord (powerOpcode on) ign) s (enter (.power on) s) := by
  cases on <;>
    simp only [decodeHost, hostWord_opc, hostWord_ign, powerOpcode, if_true, Bool.false_eq_true, if_false] <;> rfl

section
variable {w : OpWord} {q : Seq} {s : State} {prog : List OpWord}
  (hx : ∀ u, exec (decodeHost w) u = acceptBus w u (enter q u)) (hw : presents s w prog) (ha : noArrival s = true)
include hx hw ha

/-- Before the bus is started the accepting step raises BusNotStarted (40_bus_primitives R133). -/
theorem step_busWord_notStarted (hb : s.fbc.busStarted = false) :
    step s = .next (raiseFbc .busNotStarted w { s with program := prog }) := by
  obtain ⟨hidle, -, -⟩ := (atRest_iff s).mp hw.1
  rw [step_hostWord hw ha, hx, acceptBus_notStarted (by exact hidle) (by exact hb)]

/-- Once the bus is started the accepting step enters the operation's first position. -/
theorem step_busWord_started (hb : s.fbc.busStarted = true) :
    step s = .next (enter q { s with program := prog }) := by
  obtain ⟨hidle, -, -⟩ := (atRest_iff s).mp hw.1
  rw [step_hostWord hw ha, hx, acceptBus_started (by exact hidle) (by exact hb)]

end

/-! ## A transaction that is delivered -/

/-- The step at a position that writes nothing before it emits, its transaction complete and delivered at once. -/
theorem step_sent {s : State} {e : Event} {rest : List Input} (hp : seqPrepare s.fbc = s.fbc)
    (he : seqEvent s.fbc = some e) (hf : s.fbc.inFlight = false) (hi : s.inputs = .done :: rest) :
    step s = .next (seqAdvance (eventSent e (deliver e s.drf) rest s)) := by
  rw [step_busy_done (seq_ne_idle_of_event (by simp [he])) he hf hi, hp, ← hf]
  rfl

theorem step_modeOpcode {m : Mode} {s : State} {rest : List Input} (hq : s.fbc.seq = .mode m 0)
    (hf : s.fbc.inFlight = false) (hi : s.inputs = .done :: rest) :
    step s = .next (enter (.mode m 1) (eventSent (.txn (commandTxn 0x20)) (receiveCommand 0x20 s.drf) rest s)) := by
  rw [step_sent (e := .txn (commandTxn 0x20)) (by simp [seqPrepare, hq]) (by simp [seqEvent, hq]) hf hi]
  simp only [seqAdvance, eventSent, hq]
  rfl

/-- The mode flag is written in the step that completes the selector (R200, R201). -/
theorem step_modeSelector {m : Mode} {s : State} {rest : List Input} (hq : s.fbc.seq = .mode m 1)
    (hf : s.fbc.inFlight = false) (hi : s.inputs = .done :: rest) :
    step s = .next
      { s with
        inputs := rest
        fbc :=
          { s.fbc with
            seq := .idle, modeFlag := m, trace := s.fbc.trace ++ [.txn (commandTxn (modeSelector m))] }
        drf := receiveCommand (modeSelector m) s.drf } := by
  rw [step_sent (e := .txn (commandTxn (modeSelector m))) (by simp [seqPrepare, hq]) (by simp [seqEvent, hq]) hf hi]
  simp only [seqAdvance, eventSent, hq]
  rfl

theorem step_power {on : Bool} {s : State} {rest : List Input} (hq : s.fbc.seq = .power on)
    (hf : s.fbc.inFlight = false) (hi : s.inputs = .done :: rest) :
    step s = .next
      (enter .idle
        (eventSent (.txn (commandTxn (if on then 0xAF else 0xAE))) (receiveCommand (if on then 0xAF else 0xAE) s.drf)
          rest s)) := by
  rw [step_sent (e := .txn (commandTxn (if on then 0xAF else 0xAE))) (by simp [seqPrepare, hq])
    (by simp [seqEvent, hq]) hf hi]
  simp only [seqAdvance, eventSent, hq]
  rfl

/-- With nothing pending the two bytes set the addressing mode and nothing else (45_display_register_fsm R227). -/
theorem receive_modeCommand {d : Drf} (h : d.pending = none) (m : Mode) :
    receiveCommand (modeSelector m) (receiveCommand 0x20 d) = { d with addrMode := m } := by
  have hwaits : receiveCommand 0x20 d = { d with pending := some .addrMode } := commandByte_none h
  rw [hwaits, receiveCommand, commandByte_some rfl, ← h]
  cases m <;> rfl

/-- With nothing pending the byte sets the panel's state and nothing else (45_display_register_fsm R236, R237). -/
theorem receive_powerCommand {d : Drf} (h : d.pending = none) (on : Bool) :
    receiveCommand (if on then 0xAF else 0xAE) d = { d with displayOn := on } := by
  rw [receiveCommand, commandByte_none h]
  cases on <;> rfl

/-! ## A transaction that hangs (20_memory R74, 60_exceptions R283) -/

/-- A transaction hangs at the position `q` while the mode flag is `m`: the transport answers nothing more. -/
structure HungAt (q : Seq) (m : Mode) (s : State) : Prop where
  event : (seqEvent s.fbc).isSome
  inputs : s.inputs = []
  seq : s.fbc.seq = q
  modeFlag : s.fbc.modeFlag = m

theorem transact_unanswered {e : Event} {s : State} (hi : s.inputs = []) :
    (transact e s).1.inputs = [] ∧ (transact e s).2 = false := by
  cases hf : s.fbc.inFlight with
  | true => rw [transact_held hf, settle_unanswered (.inr hi)]; exact ⟨hi, rfl⟩
  | false => rw [transact_free hf, settle_unanswered (s := launch e s) (.inr hi)]; exact ⟨hi, rfl⟩

theorem HungAt.sequencerStep {q : Seq} {m : Mode} {s : State} (h : HungAt q m s) : HungAt q m (sequencerStep s) := by
  have hans (e : Event) := transact_unanswered (e := e) (s := { s with fbc := seqPrepare s.fbc }) h.inputs
  obtain ⟨hn, -⟩ | ⟨e, -, -, hstep⟩ | ⟨e, -, hdone, -⟩ := sequencerStep_cases s
  · exact absurd h.event (by simp [hn])
  · rw [hstep]
    exact {
      event := by rw [seqEvent_congr (f := s.fbc) (by simp) (by simp) (by simp)]; exact h.event
      inputs := (hans e).1
      seq := by simpa using h.seq
      modeFlag := by simpa using h.modeFlag }
  · exact absurd hdone (by simp [hans e])

theorem HungAt.steps {q : Seq} {m : Mode} {s : State} (h : HungAt q m s) (n : Nat) :
    ∃ t, steps n s = .next t ∧ HungAt q m t := by
  induction n generalizing s with
  | zero => exact ⟨s, rfl, h⟩
  | succ n ih =>
    rw [steps_succ (step_busy (by simp [noArrival, h.inputs]) (seq_ne_idle_of_event h.event))]
    exact ih h.sequencerStep

/-- A mode operation hangs at either transaction. -/
theorem hungAt_mode {m : Mode} {k : Fin 2} {s : State} (hi : s.inputs = []) (hq : s.fbc.seq = .mode m k) :
    HungAt (.mode m k) s.fbc.modeFlag s :=
  ⟨by simp [seqEvent, hq], hi, hq, rfl⟩

/-! ## The whole operations -/

section
variable {m : Mode} {ign : BitVec 28} {s : State} {prog : List OpWord} {rest : List Input}
  (hw : presents s (hostWord (modeOpcode m) ign) prog) (hb : s.fbc.busStarted = true)
include hw hb

theorem steps_mode (hi : s.inputs = .done :: .done :: rest) (hp : s.drf.pending = none) :
    steps 3 s = .next
      { s with
        program := prog
        inputs := rest
        fbc :=
          { s.fbc with
            modeFlag := m
            trace := s.fbc.trace ++ [.txn (commandTxn 0x20)] ++ [.txn (commandTxn (modeSelector m))] }
        drf := { s.drf with addrMode := m } } := by
  obtain ⟨hidle, -, hfree⟩ := (atRest_iff s).mp hw.1
  rw [steps_succ (step_busWord_started (exec_modeWord m ign) hw (by simp [noArrival, hi, Input.isAnswer]) hb),
    steps_succ (step_modeOpcode rfl (by exact hfree) (by exact hi)),
    steps_succ (step_modeSelector rfl (by exact hfree) rfl), ← receive_modeCommand hp, ← hidle]
  rfl

/-- With no answer at all the operation stays at its opcode. -/
theorem steps_mode_hungOpcode (hi : s.inputs = []) (n : Nat) :
    ∃ t, steps (n + 2) s = .next t ∧ HungAt (.mode m 0) s.fbc.modeFlag t := by
  rw [steps_succ (step_busWord_started (exec_modeWord m ign) hw (by simp [noArrival, hi]) hb)]
  exact (hungAt_mode (by exact hi) rfl).steps (n + 1)

/-- With one answer the operation stays at its selector. -/
theorem steps_mode_hungSelector (hi : s.inputs = [.done]) (n : Nat) :
    ∃ t, steps (n + 3) s = .next t ∧ HungAt (.mode m 1) s.fbc.modeFlag t := by
  obtain ⟨-, -, hfree⟩ := (atRest_iff s).mp hw.1
  rw [steps_succ (step_busWord_started (exec_modeWord m ign) hw (by simp [noArrival, hi, Input.isAnswer]) hb),
    steps_succ (step_modeOpcode rfl (by exact hfree) (by exact hi))]
  exact (hungAt_mode rfl rfl).steps (n + 1)

end

theorem steps_power {on : Bool} {ign : BitVec 28} {s : State} {prog : List OpWord} {rest : List Input}
    (hw : presents s (hostWord (powerOpcode on) ign) prog) (hb : s.fbc.busStarted = true)
    (hi : s.inputs = .done :: rest) (hp : s.drf.pending = none) :
    steps 2 s = .next
      { s with
        program := prog
        inputs := rest
        fbc := { s.fbc with trace := s.fbc.trace ++ [.txn (commandTxn (if on then 0xAF else 0xAE))] }
        drf := { s.drf with displayOn := on } } := by
  obtain ⟨hidle, -, hfree⟩ := (atRest_iff s).mp hw.1
  rw [steps_succ (step_busWord_started (exec_powerWord on ign) hw (by simp [noArrival, hi, Input.isAnswer]) hb),
    steps_succ (step_power rfl (by exact hfree) (by exact hi)), ← receive_powerCommand hp, ← hidle]
  rfl

/-- Settles O21: the accepting step, then two transactions that are delivered, or one that hangs. -/
theorem modeOperationsRun : Obligations.ModeOperationsRun := by
  unfold Obligations.ModeOperationsRun
  intro m ign s prog rest opc selector hw ha
  have hopc : opc = modeOpcode m := by cases m <;> rfl
  have hselector : selector = modeSelector m := by cases m <;> rfl
  clear_value opc selector
  subst hopc hselector
  refine ⟨fun hb => step_busWord_notStarted (exec_modeWord m ign) hw ha hb, fun hb hi hp => ?_, fun hb hi n => ?_,
    fun hb hi n => ?_⟩
  · rw [steps_mode hw hb hi hp, List.append_assoc]
    rfl
  · obtain ⟨t, hrun, hhung⟩ := steps_mode_hungOpcode hw hb hi n
    exact ⟨t, hrun, hhung.seq, hhung.modeFlag⟩
  · obtain ⟨t, hrun, hhung⟩ := steps_mode_hungSelector hw hb hi n
    exact ⟨t, hrun, hhung.seq, hhung.modeFlag⟩

/-- Settles O22: the accepting step, then the one transaction. -/
theorem powerOperationsRun : Obligations.PowerOperationsRun := by
  unfold Obligations.PowerOperationsRun
  intro on ign s prog rest opc hw ha
  exact ⟨fun hb => step_busWord_notStarted (exec_powerWord on ign) hw ha hb,
    fun hb hi hp => steps_power hw hb hi hp⟩

/-! ## Who writes the mode flag (R202) -/

/-- Going on writes the mode flag after a selector only: that of a mode operation, or that of INIT's vector. -/
theorem seqAdvance_modeFlag_ne {s : State} (h : (seqAdvance s).fbc.modeFlag ≠ s.fbc.modeFlag) :
    (s.fbc.seq = .mode (seqAdvance s).fbc.modeFlag 1 ∧ (seqAdvance s).fbc.seq = .idle) ∨
      (s.fbc.seq = .initSend 11 ∧ (seqAdvance s).fbc.seq = .initSend 12 ∧
        (seqAdvance s).fbc.modeFlag = .horizontal) := by
  cases hq : s.fbc.seq with
  | idle | initCfg | initStart | power => simp [seqAdvance, hq] at h
  | initSend k =>
    by_cases hk : k = initModeElement
    · subst hk
      exact .inr ⟨rfl, by simp [seqAdvance, hq, initModeElement, initVector], by simp [seqAdvance, hq, initModeWrite]⟩
    · simp [seqAdvance, hq, initModeWrite, hk] at h
  | flush ph =>
    cases ph with
    | curLo | curHi | curPg => simp [seqAdvance, hq] at h
    | data =>
      have hkept : (flushNext s).fbc.modeFlag = s.fbc.modeFlag := by unfold flushNext; split <;> rfl
      simp [seqAdvance, hq, hkept] at h
  | mode m k =>
    by_cases hk : k = 0
    · simp [seqAdvance, hq, hk] at h
    · obtain rfl : k = 1 := by omega
      exact .inl (by simp [seqAdvance, hq])

/-- A step of the sequencer goes on from the position and the mode flag it finds, or writes neither. -/
theorem sequencerStep_goesOn (s : State) :
    (sequencerStep s).fbc.modeFlag = s.fbc.modeFlag ∨
      ∃ u, sequencerStep s = seqAdvance u ∧ u.fbc.seq = s.fbc.seq ∧ u.fbc.modeFlag = s.fbc.modeFlag := by
  obtain ⟨-, h⟩ | ⟨e, -, -, h⟩ | ⟨e, -, -, h⟩ := sequencerStep_cases s <;> rw [h]
  · exact .inr ⟨_, rfl, by simp, by simp⟩
  · exact .inl (by simp)
  · exact .inr ⟨_, rfl, by simp, by simp⟩

theorem callSteps_modeFlag (n : Nat) (s : State) : (callSteps n s).fbc.modeFlag = s.fbc.modeFlag := by
  obtain ⟨-, _, _, h⟩ := callSteps_shape n s
  rw [h]

/-- Settles O57: every case of a step but the sequencer's keeps the mode flag. -/
theorem modeFlagWriters : Obligations.ModeFlagWriters := by
  unfold Obligations.ModeFlagWriters
  intro s t hr ht hne
  cases stepCase_of_step ht with
  | reset _ _ _ _ arrival => simp [noReset, arrival] at hr
  | received | quiet => exact absurd rfl hne
  | called es rest n => exact absurd (callSteps_modeFlag n (joinCall es rest s)) hne
  | sequencer own =>
    obtain hkept | ⟨u, hgo, hseq, hflag⟩ := sequencerStep_goesOn s
    · exact absurd hkept hne
    · rw [hgo, ← hflag] at hne
      rw [hgo, ← hseq]
      exact ⟨own, seqAdvance_modeFlag_ne hne⟩
  | calls => exact absurd (callSteps_one s ▸ callSteps_modeFlag 1 s) hne
  | host _ _ _ _ _ _ word =>
    obtain ⟨-, hkept, -⟩ := word.mode_frame
    exact absurd hkept hne

end Sys2Proof.Machine
end

section
/-! # What DRF receives: data bytes, commands, and what else reaches it (45_display_register_fsm R220 to R249) -/

namespace Sys2Proof.Machine

/-! ## Transactions that are no command (R221, R222, R245 to R247) -/

/-- Settles O30: a transaction is told apart by its address, then by its control byte. -/
theorem otherAddressAndReservedControl : Obligations.OtherAddressAndReservedControl := by
  unfold Obligations.OtherAddressAndReservedControl
  intro a c p s
  refine ⟨fun ha => ⟨?_, rfl⟩, fun hcmd hdata => ⟨?_, rfl⟩⟩
  · exact (decodeTxn_txnBits a c p).trans (if_pos ha)
  · exact (decodeTxn_txnBits devAddr c p).trans <|
      (if_neg (not_not.mpr rfl)).trans <| (if_neg hcmd).trans (if_neg hdata)

theorem exec_txnData (v : Byte) (s : State) : exec (.txnData v) s = .next { s with drf := receiveData v s.drf } := rfl

/-- Before the last column the cursor moves to the next one, in either mode. -/
theorem advanceCursor_column {d : Drf} (h : d.col.toNat < 127) :
    (advanceCursor d).col.toNat = d.col.toNat + 1 ∧ (advanceCursor d).page = d.page := by
  rw [advanceCursor, if_pos h]
  exact ⟨by bv_omega, rfl⟩

/-- After the last column of a page horizontal mode goes on at the next page, after the last page at the first
(R246). -/
theorem advanceCursor_horizontal {d : Drf} (hm : d.addrMode = .horizontal) (h : d.col.toNat = 127) :
    (advanceCursor d).col = 0 ∧ (advanceCursor d).page.toNat = (d.page.toNat + 1) % 8 := by
  have hp : ((d.page + 1) % 8).toNat = (d.page.toNat + 1) % 8 := by
    rw [BitVec.toNat_umod, BitVec.toNat_add]
    exact Nat.mod_mod_of_dvd _ (by decide)
  rw [advanceCursor, if_neg (by omega), hm]
  exact ⟨rfl, hp⟩

/-- Page mode never leaves the page (R247). -/
theorem advanceCursor_page {d : Drf} (hm : d.addrMode = .page) : (advanceCursor d).page = d.page := by
  rw [advanceCursor, hm]
  split <;> rfl

/-- Settles O32, by the three things a data byte can do. -/
theorem dataByteReceived : Obligations.DataByteReceived := by
  unfold Obligations.DataByteReceived
  intro v s hwf
  refine ⟨_, exec_txnData v s, ?_⟩
  obtain ⟨hpend, h⟩ | ⟨hp, hrange, h⟩ | ⟨hp, hpage, h⟩ := receiveData_cases v s.drf
  · rw [if_pos hpend, h]
    rfl
  · rw [if_neg (not_not.mpr hp), if_pos hrange, h]
    rfl
  · rw [if_neg (not_not.mpr hp), if_neg (Nat.not_lt.mpr hpage), h]
    refine ⟨?_, fun a => ?_, fun hc => advanceCursor_column hc, fun hm hc => advanceCursor_horizontal hm hc,
      fun hm => advanceCursor_page hm⟩
    · obtain ⟨c, p, hmove⟩ :=
        advanceCursor_shape { s.drf with gddram := Memory.write s.drf.gddram (cursorAddr s.drf).toNat v }
      rw [hmove]
    · rw [advanceCursor_gddram, Memory.read_write hwf, cursorAddr_toNat hpage]

/-! ## Commands with nothing pending (R224 to R244, R248) -/

section
variable {s : State} {b c v : Byte} {op : ParamOp} {f : Drf → Drf}

/-- A command byte with nothing pending is the command itself (R223). -/
theorem drfNext_commandByte_none (h : s.drf.pending = none) :
    drfNext (commandByte b f) s = .next { s with drf := f s.drf } := by
  rw [drfNext_eq, commandByte_none h]

/-- So is a two-byte command. -/
theorem drfNext_commandPair_none (h : s.drf.pending = none) :
    drfNext (commandPair op v f) s = .next { s with drf := f s.drf } := by
  rw [drfNext_eq, commandPair_none h]

/-- The opcode of a two-byte command only waits for its parameter (30_encoding R99). -/
theorem exec_txnCommand_opcode (h : s.drf.pending = none) :
    exec (.txnCommand (paramOpByte op)) s = .next { s with drf := { s.drf with pending := some op } } :=
  (drfNext_commandByte_none h).trans (by rw [receiveOpcode_paramOpByte])

/-- The byte after it is its parameter, whatever the value (R223). -/
theorem exec_txnCommand_parameter (h : s.drf.pending = some op) :
    exec (.txnCommand v) s = .next { s with drf := parameterRule op v { s.drf with pending := none } } := by
  change drfNext (commandByte v (receiveOpcode v)) s = _
  rw [drfNext_eq, commandByte_some h]

/-- A reserved byte, named as the byte `c` of the tables, raises RsvdCmd (R248). -/
theorem reservedCommand_none (h : s.drf.pending = none) (hb : b = c) :
    reservedCommand b s =
      .next { s with drf := { s.drf with fRsvdCmd := stickyRaise s.drf.fRsvdCmd (0x3C#7 ++ 0x80#8 ++ c) } } := by
  rw [hb]
  exact drfNext_commandByte_none h

end

/-- A row's pattern with its free low bits filled in (30_encoding R98) is its fixed bits and the low bits, joined. -/
theorem append_eq_or_setWidth {m k : Nat} {p : BitVec m} {c : BitVec (m + k)} (hc : c = p ++ 0#k) (n : BitVec k) :
    p ++ n = c ||| n.setWidth (m + k) := by
  subst hc
  ext i hi
  simp only [BitVec.getElem_or, BitVec.getElem_append, BitVec.getElem_setWidth]
  split
  · next hk => simp [BitVec.getLsbD_eq_getElem hk]
  · next hk => simp [BitVec.getLsbD_of_ge n i (Nat.not_lt.mp hk)]

/-- Settles O34: each command joins its operand to what it keeps of the register. -/
theorem cursorCommands : Obligations.CursorCommands := by
  unfold Obligations.CursorCommands
  intro s hp
  refine ⟨fun n => ?_, fun n => ?_, fun n => ?_, fun n => drfNext_commandByte_none hp⟩
  · exact ⟨_, drfNext_commandByte_none hp, rfl, BitVec.extractLsb'_append_eq_right, BitVec.extractLsb'_append_eq_left⟩
  · exact ⟨_, drfNext_commandByte_none hp, rfl, BitVec.extractLsb'_append_eq_left, BitVec.extractLsb'_append_eq_right⟩
  · have hbyte : 0b00011#5 ++ n = 0x18#8 ||| n.setWidth 8 := append_eq_or_setWidth rfl n
    rw [← hbyte]
    exact drfNext_commandByte_none hp

/-- Settles O35: each of the eight bytes is its command. -/
theorem oneByteCommands : Obligations.OneByteCommands := by
  unfold Obligations.OneByteCommands
  intro s hp
  and_intros
  all_goals exact drfNext_commandByte_none hp

/-- A two-byte command with nothing pending: its opcode waits, and the command whole applies the parameter. -/
theorem twoByteCommand {op : ParamOp} {i : Byte → Instr}
    (hi : ∀ v s, exec (i v) s = drfNext (commandPair op v (parameterRule op v)) s) (v : Byte) (s : State)
    (h : s.drf.pending = none) :
    exec (.txnCommand (paramOpByte op)) s = .next { s with drf := { s.drf with pending := some op } } ∧
      exec (i v) s = .next { s with drf := parameterRule op v s.drf } :=
  ⟨exec_txnCommand_opcode h, (hi v s).trans (drfNext_commandPair_none h)⟩

/-- Settles O36: the parameter rule of each of the eight opcodes is to store the byte. -/
theorem parameterCommands : Obligations.ParameterCommands := by
  unfold Obligations.ParameterCommands
  exact ⟨
    twoByteCommand (op := .contrast) fun _ _ => rfl, fun _ _ => exec_txnCommand_parameter,
    twoByteCommand (op := .chargePump) fun _ _ => rfl, fun _ _ => exec_txnCommand_parameter,
    twoByteCommand (op := .muxRatio) fun _ _ => rfl, fun _ _ => exec_txnCommand_parameter,
    twoByteCommand (op := .dispOffset) fun _ _ => rfl, fun _ _ => exec_txnCommand_parameter,
    twoByteCommand (op := .clkDiv) fun _ _ => rfl, fun _ _ => exec_txnCommand_parameter,
    twoByteCommand (op := .precharge) fun _ _ => rfl, fun _ _ => exec_txnCommand_parameter,
    twoByteCommand (op := .comPins) fun _ _ => rfl, fun _ _ => exec_txnCommand_parameter,
    twoByteCommand (op := .vcomLevel) fun _ _ => rfl, fun _ _ => exec_txnCommand_parameter⟩

/-- Settles O37: the parameter rule of the addressing mode is the choice the statement makes. -/
theorem addressingModeSelector : Obligations.AddressingModeSelector := by
  unfold Obligations.AddressingModeSelector
  exact fun v s => ⟨twoByteCommand (op := .addrMode) (fun _ _ => rfl) v s, exec_txnCommand_parameter⟩

/-- Settles O38: first the rows of a single byte, then those with free low bits. -/
theorem reservedCommandBytesRaise : Obligations.ReservedCommandBytesRaise := by
  unfold Obligations.ReservedCommandBytesRaise
  intro s hp raised
  and_intros
  any_goals exact reservedCommand_none hp rfl
  all_goals exact fun n => reservedCommand_none hp (append_eq_or_setWidth rfl n)

/-! ## What they leave unchanged (R220 to R249) -/

/-- What DRF can be given: a transaction of each kind, or a command at its decoder. -/
inductive Reception : Instr → Prop
  | otherAddress (a : BitVec 7) (c p : Byte) : Reception (.txnOtherAddress a c p)
  | reservedCtrl (c p : Byte) : Reception (.txnReservedCtrl c p)
  | commandByte (p : Byte) : Reception (.txnCommand p)
  | dataByte (v : Byte) : Reception (.txnData v)
  | command {i : Instr} {bytes more : List Byte} (decoded : decodeCommand bytes = .ok (i, more)) : Reception i

theorem reception_decodeTxn (w : TxnWord) : Reception (decodeTxn w) := by
  simp only [decodeTxn]
  split
  · exact .otherAddress ..
  · split
    · exact .commandByte _
    · split
      · exact .dataByte _
      · exact .reservedCtrl ..

theorem receiveBytes_gddram (bytes : List Byte) (d : Drf) : (receiveBytes bytes d).gddram = d.gddram := by
  induction bytes generalizing d with
  | nil => rfl
  | cons b rest ih => exact (ih _).trans (receiveCommand_gddram b d)

/-- A command with bytes after it does what its own bytes do when they are received one after the other. -/
theorem exec_decodeCommand_eq_receiveBytes {bytes more : List Byte} {i : Instr}
    (h : decodeCommand bytes = .ok (i, more)) : ∃ bs, ∀ s, exec i s = drfNext (receiveBytes bs) s := by
  obtain ⟨r, hr, b, v, hcov, rfl, -⟩ := decodeCommand_eq_ok h
  rw [commandRows_eq, List.mem_append] at hr
  obtain hr | hr := hr
  · exact ⟨_, receivesBytes_definedRows r hr b v hcov⟩
  · exact ⟨_, receivesBytes_reservedRows hr b v hcov⟩

/-- Whatever DRF is given acts on DRF alone, and only a data byte writes the display RAM. -/
theorem Reception.exec_eq {i : Instr} (h : Reception i) :
    ∃ f, (∀ s, exec i s = drfNext f s) ∧ ((∀ v, i ≠ .txnData v) → ∀ d, (f d).gddram = d.gddram) := by
  cases h with
  | otherAddress => exact ⟨fun d => d, fun _ => rfl, fun _ _ => rfl⟩
  | reservedCtrl => exact ⟨_, fun _ => rfl, fun _ => raiseDrf_gddram _ _⟩
  | commandByte p => exact ⟨_, fun _ => rfl, fun _ => receiveCommand_gddram p⟩
  | dataByte v => exact ⟨_, fun _ => rfl, fun hne => absurd rfl (hne v)⟩
  | command decoded =>
    obtain ⟨bs, hbs⟩ := exec_decodeCommand_eq_receiveBytes decoded
    exact ⟨_, hbs, fun _ => receiveBytes_gddram bs⟩

/-- Of the registers a data byte changes the cursor only, or raises one of its two faults (R245, R249). -/
theorem receiveData_frame (v : Byte) (d : Drf) :
    receiveData v d =
      { d with
        gddram := (receiveData v d).gddram, col := (receiveData v d).col, page := (receiveData v d).page,
        fProto := (receiveData v d).fProto, fRamRange := (receiveData v d).fRamRange } := by
  obtain ⟨-, h⟩ | ⟨-, -, h⟩ | ⟨-, -, h⟩ := receiveData_cases v d <;> rw [h]
  · rfl
  · rfl
  · obtain ⟨c, p, hmove⟩ := advanceCursor_shape { d with gddram := Memory.write d.gddram (cursorAddr d).toNat v }
    rw [hmove]

/-- Power, cursor and mode after an instruction that makes `d'` of `d`: each is as it was but for the instructions that
write it, and no parameter is pending. -/
structure CommandFrame (i : Instr) (d d' : Drf) : Prop where
  displayOn : i ≠ .displayOff → i ≠ .displayOn → d'.displayOn = d.displayOn
  col : (∀ n, i ≠ .setColLow n) → (∀ n, i ≠ .setColHigh n) → d'.col = d.col
  page : (∀ n, i ≠ .setPage n) → d'.page = d.page
  addrMode : (∀ v, i ≠ .setAddrMode v) → d'.addrMode = d.addrMode
  pending : d'.pending = none

section
variable {i : Instr} {d d' : Drf} {s t : State}

/-- Whatever leaves all of them meets the frame of every instruction. -/
theorem CommandFrame.of_eq (hon : d'.displayOn = d.displayOn) (hcol : d'.col = d.col) (hpage : d'.page = d.page)
    (hmode : d'.addrMode = d.addrMode) (hp : d'.pending = none) : CommandFrame i d d' :=
  ⟨fun _ _ => hon, fun _ _ => hcol, fun _ => hpage, fun _ => hmode, hp⟩

theorem CommandFrame.raiseDrf (k : DrfFault) (t : Txn) (h : d.pending = none) :
    CommandFrame i d (raiseDrf k t d) :=
  .of_eq (raiseDrf_displayOn ..) (raiseDrf_col ..) (raiseDrf_page ..) (raiseDrf_addrMode ..)
    ((raiseDrf_pending ..).trans h)

theorem CommandFrame.setAddrMode (v : Byte) (h : d.pending = none) :
    CommandFrame (.setAddrMode v) d (setAddrModeOp v d) := by
  obtain ⟨-, hcol, hpage, hon, hpending⟩ := parameterRule_frame .addrMode v d
  exact ⟨fun _ _ => hon, fun _ _ => hcol, fun _ => hpage, fun hne => absurd rfl (hne v), hpending.trans h⟩

theorem CommandFrame.of_commandByte {b : Byte} {f : Drf → Drf} (h : s.drf.pending = none)
    (ht : drfNext (commandByte b f) s = .next t) (hf : CommandFrame i s.drf (f s.drf)) :
    CommandFrame i s.drf t.drf := by
  rw [drfNext_commandByte_none h] at ht
  cases ht
  exact hf

theorem CommandFrame.of_commandPair {op : ParamOp} {v : Byte} {f : Drf → Drf} (h : s.drf.pending = none)
    (ht : drfNext (commandPair op v f) s = .next t) (hf : CommandFrame i s.drf (f s.drf)) :
    CommandFrame i s.drf t.drf := by
  rw [drfNext_commandPair_none h] at ht
  cases ht
  exact hf

/-- Every command with nothing pending. -/
theorem commandFrame_exec {bytes : List Byte} (hi : encode i = .command bytes) (h : s.drf.pending = none)
    (ht : exec i s = .next t) : CommandFrame i s.drf t.drf := by
  cases i with
  | init | setPixel | display | clearDisplay | setPageMode | setHorizontalMode | setPowerOn | setPowerOff
  | hostReserved0 | hostReserved9 | hostReservedA | hostReservedB | hostReservedC | hostReservedD | hostReservedE
  | hostReservedF | sendCommand | sendData | setCursorXY | txnCommand | txnData | txnReservedCtrl
  | txnOtherAddress => cases hi
  | setColLow n | setColHigh n =>
    exact .of_commandByte h ht ⟨fun _ _ => rfl, by simp, fun _ => rfl, fun _ => rfl, h⟩
  | setPage n => exact .of_commandByte h ht ⟨fun _ _ => rfl, fun _ _ => rfl, by simp, fun _ => rfl, h⟩
  | displayOff | displayOn =>
    exact .of_commandByte h ht ⟨by simp, fun _ _ => rfl, fun _ => rfl, fun _ => rfl, h⟩
  | setAddrMode v => exact .of_commandPair h ht (.setAddrMode v h)
  | stopScroll | startLine | segRemap | displayAllOnResume | normalDisplay | comScanDir =>
    exact .of_commandByte h ht (.of_eq rfl rfl rfl rfl h)
  | setContrast | chargePump | setMuxRatio | setDisplayOffset | setClockDiv | setPrecharge | setComPins
  | setVcomLevel => exact .of_commandPair h ht (.of_eq rfl rfl rfl rfl h)
  | _ => exact .of_commandByte h ht (.raiseDrf _ _ h)

/-- Whatever DRF is given with nothing pending, but a command byte or a data byte. -/
theorem Reception.commandFrame (hi : Reception i) (hcmd : ∀ p, i ≠ .txnCommand p) (hdata : ∀ v, i ≠ .txnData v)
    (h : s.drf.pending = none) (ht : exec i s = .next t) : CommandFrame i s.drf t.drf := by
  cases hi with
  | otherAddress => cases ht; exact .of_eq rfl rfl rfl rfl h
  | reservedCtrl c p => cases ht; exact .raiseDrf .rsvdCtrl ⟨devAddr, c, p⟩ h
  | commandByte p => exact absurd rfl (hcmd p)
  | dataByte v => exact absurd rfl (hdata v)
  | command decoded =>
    obtain ⟨r, hr, b, v, hcov, rfl, -⟩ := decodeCommand_eq_ok decoded
    exact commandFrame_exec (encode_commandRows r hr b v hcov).2 h ht

end

/-- Settles O40: a reception acts on DRF alone; a data byte and a command with nothing pending change of it what their
frames name. -/
theorem drfInstructionsFrame : Obligations.DrfInstructionsFrame := by
  unfold Obligations.DrfInstructionsFrame
  intro i s t hi ht
  have hrec : Reception i := by
    obtain ⟨w, rfl⟩ | ⟨bytes, more, hd⟩ := hi
    · exact reception_decodeTxn w
    · exact .command hd
  obtain ⟨f, hf, hgddram⟩ := hrec.exec_eq
  have hnext : drfNext f s = .next t := (hf s).symm.trans ht
  refine ⟨?_, ?_, ?_, ?_, ?_, fun hcmd hdata hp => ?_⟩
  · cases hnext; rfl
  · cases hnext; exact fun _ => rfl
  · cases hnext
    exact fun hne a => by rw [hgddram hne]
  · rintro v rfl a ha
    cases ht
    exact read_deliver_data ha
  · rintro v rfl
    cases ht
    exact receiveData_frame v s.drf
  · obtain ⟨hon, hcol, hpage, hmode, hpending⟩ := hrec.commandFrame hcmd hdata hp ht
    exact ⟨hon, hcol, hpage, hmode, hpending⟩

end Sys2Proof.Machine
end

section
/-! # Fault flags (60_exceptions R271 to R283)

`FlagStep` says what happens to the flags of either half: none changes, or one fault is raised.  Every operation word
does it to FBC and every transaction to DRF; that flags are sticky, and that one word raises at most one fault, follow
from it. -/

namespace Sys2Proof.Machine

/-! ## Raising a fault (R272, R276) -/

/-- Raising a fault whose flag is set changes nothing. -/
theorem raiseFbc_set {k : FbcFault} {s : State} (h : (fbcFlag k s.fbc).flag = true) (w : OpWord) :
    raiseFbc k w s = s := by
  cases k <;> simp only [fbcFlag] at h <;> simp only [raiseFbc, stickyRaise_set h]

theorem raiseDrf_set {k : DrfFault} {d : Drf} (h : (drfFlag k d).flag = true) (t : Txn) : raiseDrf k t d = d := by
  cases k <;> simp only [drfFlag] at h <;> simp only [raiseDrf, stickyRaise_set h]

/-- Settles O52: a flag that is set keeps its word, so nothing changes; a clear one latches the word. -/
theorem raisingLatchesFirst : Obligations.RaisingLatchesFirst := by
  unfold Obligations.RaisingLatchesFirst
  refine ⟨fun k w s => ?_, fun k t d => ?_⟩
  · split
    · next h => exact raiseFbc_set h w
    · next h =>
      rw [Bool.not_eq_true] at h
      cases k <;> simp only [fbcFlag] at h <;> simp only [raiseFbc, stickyRaise_clear h]
  · dsimp only
    split
    · next h => exact raiseDrf_set h t
    · next h =>
      rw [Bool.not_eq_true] at h
      cases k <;> simp only [drfFlag] at h <;> simp only [raiseDrf, stickyRaise_clear h, Txn.bits, txnBits]

/-- What happens to a family of flags: none changes, or one fault is raised. -/
inductive FlagStep {κ : Type} [DecidableEq κ] {n : Nat} (before after : κ → Sticky n) : Prop
  | none (h : ∀ j, after j = before j)
  | raised (k : κ) (info : BitVec n) (h : ∀ j, after j = if j = k then stickyRaise (before k) info else before j)

section
variable {κ : Type} [DecidableEq κ] {n : Nat} {before after : κ → Sticky n} {k k' : κ}

/-- A flag that is set stays, and keeps its information word. -/
theorem FlagStep.sticky (h : FlagStep before after) (hk : (before k).flag = true) : after k = before k := by
  cases h with
  | none h => exact h k
  | raised j info h =>
    rw [h k]
    split
    · next hj => subst hj; exact stickyRaise_set hk info
    · rfl

/-- Two flags that change are the same flag. -/
theorem FlagStep.unique (h : FlagStep before after) (hk : after k ≠ before k) (hk' : after k' ≠ before k') :
    k = k' := by
  cases h with
  | none h => exact absurd (h k) hk
  | raised j info h =>
    have raised_of_ne {i : κ} (hi : after i ≠ before i) : i = j := by
      by_contra hne
      exact hi ((h i).trans (if_neg hne))
    exact (raised_of_ne hk).trans (raised_of_ne hk').symm

end

/-! ## The flags of DRF -/

theorem FlagStep.raiseDrf (k : DrfFault) (t : Txn) (d : Drf) :
    FlagStep (drfFlag · d) (drfFlag · (raiseDrf k t d)) :=
  .raised k t.bits fun j => drfFlag_raiseDrf j k t d

theorem FlagStep.ite {c : Prop} [Decidable c] {d a b : Drf} (ha : FlagStep (drfFlag · d) (drfFlag · a))
    (hb : FlagStep (drfFlag · d) (drfFlag · b)) : FlagStep (drfFlag · d) (drfFlag · (if c then a else b)) := by
  split
  · exact ha
  · exact hb

theorem parameterRule_flagStep (op : ParamOp) (v : Byte) (d : Drf) :
    FlagStep (drfFlag · d) (drfFlag · (parameterRule op v d)) := by
  cases op with
  | addrMode =>
    change FlagStep (drfFlag · d) (drfFlag · (setAddrModeOp v d))
    obtain ⟨-, h⟩ | ⟨-, h⟩ | ⟨-, -, h⟩ := setAddrModeOp_cases v d <;> rw [h]
    · exact .none fun j => by cases j <;> rfl
    · exact .none fun j => by cases j <;> rfl
    · exact .raiseDrf ..
  | _ => exact .none fun j => by cases j <;> rfl

/-- A command byte raises ColRange or RsvdCmd, or no fault (45_display_register_fsm R225, R248). -/
theorem receiveOpcode_flagStep (b : Byte) (d : Drf) : FlagStep (drfFlag · d) (drfFlag · (receiveOpcode b d)) := by
  refine .ite ?_ <| .ite ?_ <| .ite (.raiseDrf ..) <| .ite ?_ <| .ite ?_ <| .ite ?_ <| .ite ?_ <| .ite ?_ <|
    .ite ?_ <| .ite ?_ <| .ite ?_ <| .ite ?_ ?_
  case refine_12 =>
    cases paramOpOf b with
    | none => exact .raiseDrf ..
    | some op => exact .none fun j => by cases j <;> rfl
  all_goals exact .none fun j => by cases j <;> rfl

theorem receiveCommand_flagStep (b : Byte) (d : Drf) : FlagStep (drfFlag · d) (drfFlag · (receiveCommand b d)) := by
  cases h : d.pending with
  | none =>
    rw [receiveCommand, commandByte_none h]
    exact receiveOpcode_flagStep b d
  | some op =>
    have hflags : (drfFlag · { d with pending := none }) = (drfFlag · d) := by funext j; cases j <;> rfl
    rw [receiveCommand, commandByte_some h, ← hflags]
    exact parameterRule_flagStep op b _

theorem receiveData_flagStep (v : Byte) (d : Drf) : FlagStep (drfFlag · d) (drfFlag · (receiveData v d)) := by
  obtain ⟨-, h⟩ | ⟨-, -, h⟩ | ⟨-, -, h⟩ := receiveData_cases v d <;> rw [h]
  · exact .raiseDrf ..
  · exact .raiseDrf ..
  · obtain ⟨_, _, hmove⟩ := advanceCursor_shape { d with gddram := Memory.write d.gddram (cursorAddr d).toNat v }
    rw [hmove]
    exact .none fun j => by cases j <;> rfl

/-- One transaction raises at most one fault of DRF (R274). -/
theorem receive_flagStep (t : Txn) (d : Drf) : FlagStep (drfFlag · d) (drfFlag · (receive t d)) :=
  .ite (.none fun _ => rfl) <| .ite (receiveCommand_flagStep ..) <| .ite (receiveData_flagStep ..) (.raiseDrf ..)

/-! ## The flags of FBC -/

@[simp] theorem fbcFlag_transact (k : FbcFault) (e : Event) (s : State) :
    fbcFlag k (transact e s).1.fbc = fbcFlag k s.fbc := by
  rw [transact_fbc]
  cases k <;> rfl

@[simp] theorem fbcFlag_seqPrepare (k : FbcFault) (f : Fbc) : fbcFlag k (seqPrepare f) = fbcFlag k f := by
  obtain ⟨_, _, h⟩ := seqPrepare_shape f
  rw [h]
  cases k <;> rfl

@[simp] theorem fbcFlag_seqAdvance (k : FbcFault) (s : State) : fbcFlag k (seqAdvance s).fbc = fbcFlag k s.fbc := by
  obtain ⟨_, _, _, _, h⟩ := seqAdvance_shape s
  rw [h]
  cases k <;> rfl

/-- The sequencer raises no fault of FBC. -/
theorem fbcFlag_sequencerStep (k : FbcFault) (s : State) : fbcFlag k (sequencerStep s).fbc = fbcFlag k s.fbc := by
  obtain ⟨_, h⟩ | ⟨_, _, _, h⟩ | ⟨_, _, _, h⟩ := sequencerStep_cases s <;> simp [h]

/-- A bench's calls raise no fault of FBC. -/
theorem fbcFlag_callSteps (k : FbcFault) (n : Nat) (s : State) : fbcFlag k (callSteps n s).fbc = fbcFlag k s.fbc := by
  obtain ⟨-, _, _, h⟩ := callSteps_shape n s
  rw [h]
  cases k <;> rfl

/-- One operation word raises at most one fault of FBC (R274). -/
theorem HostStep.flagStep {w : OpWord} {s t : State} (ht : HostStep w s t) :
    FlagStep (fbcFlag · s.fbc) (fbcFlag · t.fbc) := by
  cases ht with
  | fault k info => exact .raised k info fun j => fbcFlag_raiseFbc j k info s
  | _ => exact .none fun j => by cases j <;> rfl

/-- Only an accepted word raises a fault of FBC, and only a reset clears one. -/
theorem fbcFlagStep_of_step {s t : State} (hr : noReset s = true) (ht : step s = .next t) :
    FlagStep (fbcFlag · s.fbc) (fbcFlag · t.fbc) := by
  cases stepCase_of_step ht with
  | reset _ _ _ _ arrival => simp [noReset, arrival] at hr
  | received | quiet => exact .none fun _ => rfl
  | called es rest n => exact .none fun k => fbcFlag_callSteps k n (joinCall es rest s)
  | sequencer => exact .none fun k => fbcFlag_sequencerStep k s
  | calls => exact .none fun k => callSteps_one s ▸ fbcFlag_callSteps k 1 s
  | host _ _ _ _ _ _ word => exact word.flagStep

/-! ## What reception keeps, every step but a reset keeps -/

/-- A transaction at DRF's port is received. -/
theorem exec_decodeTxn_receive (w : TxnWord) : ∃ t : Txn, ∀ s, exec (decodeTxn w) s = drfNext (receive t) s := by
  refine ⟨⟨w.extractLsb' 16 7, w.extractLsb' 8 8, w.extractLsb' 0 8⟩, fun s => ?_⟩
  simp only [decodeTxn]
  split
  · next haddr => exact drfNext_congr (f := fun d => d) (funext fun d => (if_pos haddr).symm) s
  · next haddr =>
    split
    · next hcmd => exact drfNext_congr (funext fun d => ((if_neg haddr).trans (if_pos hcmd)).symm) s
    · next hcmd =>
      split
      · next hdata =>
        exact drfNext_congr (funext fun d => ((if_neg haddr).trans <| (if_neg hcmd).trans (if_pos hdata)).symm) s
      · next hdata =>
        rw [not_not] at haddr
        refine drfNext_congr (funext fun d => ?_) s
        simp [receive, haddr, hcmd, hdata]

section
variable {P : Drf → Prop} (hP : ∀ t d, P d → P (receive t d))
include hP

theorem transact_keeps_drf {e : Event} {s : State} (h : P s.drf) : P (transact e s).1.drf := by
  obtain he | he := transact_drf e s <;> rw [he]
  · exact h
  · cases e with
    | txn t => exact hP t _ h
    | busConfig | busStart => exact h

theorem callStep_keeps_drf {s : State} (h : P s.drf) : P (callStep s).1.drf := by
  obtain ⟨-, he⟩ | ⟨_, _, -, -, he⟩ | ⟨_, _, -, -, he⟩ := callStep_cases s <;> rw [he]
  · exact h
  · exact transact_keeps_drf hP h
  · exact transact_keeps_drf hP h

theorem sequencerStep_keeps_drf {s : State} (h : P s.drf) : P (sequencerStep s).drf := by
  obtain ⟨-, he⟩ | ⟨_, -, -, he⟩ | ⟨_, -, -, he⟩ := sequencerStep_cases s <;> rw [he]
  · rw [seqAdvance_drf]; exact h
  · exact transact_keeps_drf hP (by exact h)
  · rw [seqAdvance_drf]; exact transact_keeps_drf hP (by exact h)

theorem receiveBytes_keeps (bytes : List Byte) {d : Drf} (h : P d) : P (receiveBytes bytes d) := by
  induction bytes generalizing d with
  | nil => exact h
  | cons b rest ih => exact ih (hP (commandTxn b) d h)

theorem callPrimitive_keeps_drf {es : List Event} {s t : State} (h : P s.drf) (ht : callPrimitive es s = .next t) :
    P t.drf := by
  by_cases hi : s.fbc.seq = .idle
  · rw [callPrimitive_idle hi] at ht
    cases ht
    exact callSteps_induct (P := fun u => P u.drf) (fun _ => callStep_keeps_drf hP) _ _ h
  · rw [callPrimitive_busy hi] at ht
    cases ht
    exact h

theorem fetchCommand_keeps_drf {bytes : List Byte} {s t : State} (h : P s.drf)
    (ht : runFetch (fetchCommand bytes s) = .next t) : P t.drf := by
  have ran {i : Instr} {more : List Byte} {u : State} (hd : decodeCommand bytes = .ok (i, more)) (hu : P u.drf)
      (hrun : exec i u = .next t) : P t.drf := by
    obtain ⟨bs, hbs⟩ := exec_decodeCommand_eq_receiveBytes hd
    cases (hbs u).symm.trans hrun
    exact receiveBytes_keeps hP bs hu
  unfold fetchCommand at ht
  split at ht
  · next hd => exact ran hd h ht
  · next hd => exact ran hd (by exact h) ht
  · next b _ => cases ht; exact hP (commandTxn b) _ h
  · cases ht; exact h

/-- DRF changes by reception only: what every reception keeps, every step but a reset keeps. -/
theorem step_keeps_drf {s t : State} (hr : noReset s = true) (ht : step s = .next t) (h : P s.drf) : P t.drf := by
  cases ha : noArrival s with
  | true =>
    cases stepCase_of_step ht with
    | reset _ _ _ _ arrival => simp [noReset, arrival] at hr
    | received _ _ arrival => simp [ha] at arrival
    | called _ _ _ arrival => simp [ha] at arrival
    | sequencer => exact sequencerStep_keeps_drf hP h
    | calls => exact callStep_keeps_drf hP h
    | host _ _ _ _ _ _ word => rw [word.drf_eq]; exact h
    | quiet => exact h
  | false =>
    cases hi : s.inputs with
    | nil => simp [noArrival, hi] at ha
    | cons x rest =>
      rw [step_eq_runFetch] at ht
      cases x <;> simp only [fetch, hi] at ht
      case reset => simp [noReset, hi] at hr
      case txn w =>
        obtain ⟨tx, htx⟩ := exec_decodeTxn_receive w
        cases (htx _).symm.trans ht
        exact hP tx _ h
      case command bytes => exact fetchCommand_keeps_drf hP (by exact h) ht
      case callSend =>
        obtain ⟨es, hes⟩ := callPrimitive_of_fetchCall (fun _ => exec_decodeSend) ht
        exact callPrimitive_keeps_drf hP (by exact h) hes
      case callCursor =>
        obtain ⟨es, hes⟩ := callPrimitive_of_fetchCall (fun _ => exec_decodeCursor) ht
        exact callPrimitive_keeps_drf hP (by exact h) hes
      all_goals simp [noArrival, hi, Input.isAnswer] at ha

end

/-! ## Flags are sticky, and one word raises at most one (R272, R274) -/

/-- Settles O51: a step raises at most one fault of FBC, and every reception of a transaction at most one of DRF;
neither clears a flag or latches a second word. -/
theorem faultFlagsAreSticky : Obligations.FaultFlagsAreSticky := by
  unfold Obligations.FaultFlagsAreSticky
  intro s t hr ht
  refine ⟨fun k hk => (fbcFlagStep_of_step hr ht).sticky hk, fun k hk => ?_⟩
  refine step_keeps_drf (P := fun d => drfFlag k d = drfFlag k s.drf) (fun tx d hd => ?_) hr ht rfl
  exact ((receive_flagStep tx d).sticky (hd ▸ hk)).trans hd

/-- Settles O53: a word raises at most one fault of FBC and does not reach DRF, a transaction is received by DRF
alone. -/
theorem atMostOneFault : Obligations.AtMostOneFault := by
  unfold Obligations.AtMostOneFault
  refine ⟨fun w s t ht => ?_, fun w s t ht => ?_⟩
  · have word := hostStep_of_exec ht
    exact ⟨word.drf_eq, fun _ _ => word.flagStep.unique⟩
  · obtain ⟨tx, htx⟩ := exec_decodeTxn_receive w
    cases (htx s).symm.trans ht
    exact ⟨rfl, fun _ _ => (receive_flagStep tx s.drf).unique⟩

/-! ## The machine does not stop (R275) -/

theorem accept_next (s t : State) : ∃ u, accept s t = .next u := by
  unfold accept
  split <;> exact ⟨_, rfl⟩

/-- Every operation word has a meaning: each of the sixteen opcodes is an acceptance. -/
theorem exec_decodeHost_next (w : OpWord) (s : State) : ∃ t, exec (decodeHost w) s = .next t := by
  unfold decodeHost
  split <;> exact accept_next s _

theorem runFetch_fetchOwn_next (s : State) : ∃ t, runFetch (fetchOwn s) = .next t := by
  obtain ⟨-, h⟩ | ⟨-, -, h⟩ | ⟨-, -, w, rest, -, h⟩ | ⟨-, -, -, h⟩ := fetchOwn_cases s <;> rw [h]
  · exact ⟨_, rfl⟩
  · exact ⟨_, rfl⟩
  · exact exec_decodeHost_next w _
  · exact ⟨_, rfl⟩

theorem runFetch_fetchCommand_next (bytes : List Byte) (s : State) :
    ∃ t, runFetch (fetchCommand bytes s) = .next t := by
  unfold fetchCommand
  split
  · next hd => obtain ⟨f, hf⟩ := exec_decodeCommand hd; exact ⟨_, hf s⟩
  · next hd => obtain ⟨f, hf⟩ := exec_decodeCommand hd; exact ⟨_, hf _⟩
  · exact ⟨_, rfl⟩
  · exact ⟨_, rfl⟩

/-- Settles O54: reset, every reception, every word and every move of the block answer a next state; only a bench's call
could stop the machine. -/
theorem stepsNeverStop : Obligations.StepsNeverStop := by
  unfold Obligations.StepsNeverStop
  intro s hc
  rw [step_eq_runFetch]
  cases hi : s.inputs with
  | nil => simp only [fetch, hi]; exact runFetch_fetchOwn_next s
  | cons x rest =>
    cases x <;> simp only [fetch, hi]
    case reset => exact ⟨_, rfl⟩
    case txn w => obtain ⟨f, hf⟩ := exec_decodeTxn w; exact ⟨_, hf _⟩
    case command bytes => exact runFetch_fetchCommand_next bytes _
    case callSend | callCursor => simp [noNewCalls, hi] at hc
    all_goals exact runFetch_fetchOwn_next s

/-! ## A transaction that never completes (R283) -/

/-- A transport that answers nothing but "not complete" completes nothing and delivers nothing. -/
theorem settle_waiting {e : Event} {s : State} (h : ∀ x ∈ s.inputs, x = .wait) :
    ∃ rest, (∀ x ∈ rest, x = .wait) ∧ settle e s = ({ s with inputs := rest }, false) := by
  obtain ⟨rest, hi, -⟩ | ⟨rest, hi, -⟩ | ⟨rest, hi, he⟩ | he := settle_cases e s
  · simp [hi] at h
  · simp [hi] at h
  · exact ⟨rest, fun x hx => h x (by simp [hi, hx]), he⟩
  · exact ⟨s.inputs, h, he⟩

theorem transact_waiting {e : Event} {s : State} (h : ∀ x ∈ s.inputs, x = .wait) :
    (∀ x ∈ (transact e s).1.inputs, x = .wait) ∧ (transact e s).1.drf = s.drf ∧ (transact e s).2 = false := by
  cases hf : s.fbc.inFlight with
  | true =>
    obtain ⟨rest, hrest, he⟩ := settle_waiting (e := e) h
    rw [transact_held hf, he]
    exact ⟨hrest, rfl, rfl⟩
  | false =>
    obtain ⟨rest, hrest, he⟩ := settle_waiting (e := e) (s := launch e s) h
    rw [transact_free hf, he]
    exact ⟨hrest, rfl, rfl⟩

/-- The machine `t` is held where `s` was: same position and event, same words, memory, mode, DRF and flags, and the
transport still not complete. -/
structure HeldAt (s t : State) : Prop where
  event : seqEvent t.fbc = seqEvent s.fbc
  inputs : ∀ x ∈ t.inputs, x = .wait
  seq : t.fbc.seq = s.fbc.seq
  program : t.program = s.program
  fb : t.fbc.fb = s.fbc.fb
  modeFlag : t.fbc.modeFlag = s.fbc.modeFlag
  drf : t.drf = s.drf
  flags : ∀ k, fbcFlag k t.fbc = fbcFlag k s.fbc

theorem HeldAt.trans {s t u : State} (h : HeldAt s t) (h' : HeldAt t u) : HeldAt s u where
  event := h'.event.trans h.event
  inputs := h'.inputs
  seq := h'.seq.trans h.seq
  program := h'.program.trans h.program
  fb := h'.fb.trans h.fb
  modeFlag := h'.modeFlag.trans h.modeFlag
  drf := h'.drf.trans h.drf
  flags k := (h'.flags k).trans (h.flags k)

/-- A position whose event is not complete is held. -/
theorem heldAt_sequencerStep {s : State} (he : (seqEvent s.fbc).isSome) (hw : ∀ x ∈ s.inputs, x = .wait) :
    HeldAt s (sequencerStep s) := by
  have hwait (e : Event) := transact_waiting (e := e) (s := { s with fbc := seqPrepare s.fbc }) hw
  obtain ⟨hn, -⟩ | ⟨e, -, -, hstep⟩ | ⟨e, -, hdone, -⟩ := sequencerStep_cases s
  · simp [hn] at he
  · obtain ⟨hinputs, hdrf, -⟩ := hwait e
    rw [hstep]
    exact {
      event := seqEvent_congr (by simp) (by simp) (by simp)
      inputs := hinputs
      seq := by simp
      program := (transact_frame e _).2.1
      fb := by simp
      modeFlag := by simp
      drf := hdrf
      flags := by simp }
  · simp [hwait e] at hdone

theorem steps_held (n : Nat) {s : State} (he : (seqEvent s.fbc).isSome) (hw : ∀ x ∈ s.inputs, x = .wait) :
    ∃ t, steps n s = .next t ∧ HeldAt s t := by
  induction n generalizing s with
  | zero => exact ⟨s, rfl, rfl, hw, rfl, rfl, rfl, rfl, rfl, fun _ => rfl⟩
  | succ n ih =>
    have ha : noArrival s = true := by
      cases hi : s.inputs with
      | nil => simp [noArrival, hi]
      | cons x rest => simp [noArrival, hi, hw x (by simp [hi]), Input.isAnswer]
    have hheld := heldAt_sequencerStep he hw
    obtain ⟨t, ht, hheld'⟩ := ih (hheld.event ▸ he) hheld.inputs
    exact ⟨t, (steps_succ (step_busy ha (seq_ne_idle_of_event he))).trans ht, hheld.trans hheld'⟩

/-- Settles O55: every step finds the same event at the same position, not complete. -/
theorem hungTransactionHolds : Obligations.HungTransactionHolds := by
  unfold Obligations.HungTransactionHolds
  intro n s he hw
  obtain ⟨t, ht, held⟩ := steps_held n he hw
  have hbusy : t.busy = true := by simp [State.busy, held.seq, seq_ne_idle_of_event he]
  exact ⟨t, ht, hbusy, held.seq, held.program, held.fb, held.modeFlag, held.drf, held.flags⟩

end Sys2Proof.Machine
end

section
/-! # Reset and rest, and the cursor at the end of a page (70_reset_and_hazards R300, R302, 45_display_register_fsm R247)

A reset is looked at before anything else the block could do, so no hypothesis about the state is needed (log 7). -/

namespace Sys2Proof.Machine

/-! ## Reset and rest -/

/-- A reset that arrives is the whole step, in every position of the sequencer. -/
theorem step_reset {s : State} {width height : Nat} {d : ResetDraw} {rest : List Input}
    (h : s.inputs = .reset width height d :: rest) :
    step s = .next (construct width height d { s with inputs := rest }) := by
  simp [step, fetch, h]

/-- Settles O42: the step is `construct`, which takes both halves from the reset state and drops the calls. -/
theorem resetAtAnyTime : Obligations.ResetAtAnyTime := by
  unfold Obligations.ResetAtAnyTime
  intro s width height d rest h
  exact ⟨_, step_reset h, rfl, rfl, rfl, rfl, rfl, rfl, rfl⟩

/-- With no arrival, no call in progress and no word presented, an idle block stays as it is. -/
theorem step_quiet {s : State} (ha : noArrival s = true) (hi : s.fbc.seq = .idle) (hp : s.program = [])
    (hc : s.calls = []) : step s = .next s := by
  simp [step, fetch_noArrival ha, fetchOwn, hi, hc, hp]

/-- Settles O43: nothing moves such a block, and the reset state is one. -/
theorem idleBlockIsQuiet : Obligations.IdleBlockIsQuiet := by
  unfold Obligations.IdleBlockIsQuiet
  refine ⟨fun s ha hi hp hc => ⟨step_quiet ha hi hp hc, ?_⟩, fun d => ⟨rfl, rfl, rfl, rfl, rfl⟩⟩
  simp [State.opReady, hi]

/-! ## The cursor at the end of a page -/

/-- After the last column page mode goes on at the first column of the same page (R247; log 11). -/
theorem advanceCursor_pageWrap {d : Drf} (hm : d.addrMode = .page) (h : d.col.toNat = 127) :
    advanceCursor d = { d with col := 0 } := by
  rw [advanceCursor, if_neg (by omega), hm]

/-- Settles O33: the byte is stored at the last address of the page, and the cursor wraps. -/
theorem pageModeColumnWraps : Obligations.PageModeColumnWraps := by
  unfold Obligations.PageModeColumnWraps
  intro v s hp hpage hm hc
  have hat : CursorAt (127 + s.drf.page.toNat * 128) s.drf := ⟨by omega, by omega⟩
  rw [exec_txnData, receiveData_at (by omega) hp hat, advanceCursor_pageWrap]
  · exact hm
  · exact hc

end Sys2Proof.Machine
end
